-- ==== Sys2Proof/Word.lean ====
section
/-! DEFINITION. The widths the block works with (20_memory.md R74). -/

namespace Sys2Proof

/-- A 64-bit sample index (00_scope.md P16, R7). -/
abbrev Sample := BitVec 64

/-- A 5-bit line symbol; bit k is the k-th bit received (30_encoding.md R81). -/
abbrev Sym := BitVec 5

/-- A 4-bit data nibble (30_encoding.md R82). -/
abbrev Nibble := BitVec 4

/-- An 8-bit byte, also the width of a decoded nibble or its sentinel (20_memory.md R74). -/
abbrev Byte := BitVec 8

/-- A 16-bit message Header (30_encoding.md R92). -/
abbrev Header := BitVec 16

/-- A 32-bit Data Object, CRC trailer or list entry (20_memory.md R74). -/
abbrev Word := BitVec 32

/-- A 64-bit Frame field (20_memory.md R74). -/
abbrev Field := BitVec 64

end Sys2Proof
end

