-- ==== Sys2Proof/Config.lean ====
section
/-! DEFINITION. The configuration registers P1 to P16 (00_scope.md R5, 10_state.md R42), the value the
spec leaves open, P17, and the free value behind an absent list entry. -/

namespace Sys2Proof

/-- One band of intervals, in half-bit periods `SAMPLE_RATE / (2 * BIT_RATE)`: `d` is in the band when
`lo * SAMPLE_RATE ≤ den * BIT_RATE * d` and `den * BIT_RATE * d` is below `hi * SAMPLE_RATE`, or equal to
it where `closed` says so. In exact integer arithmetic (R7). -/
structure Band where
  lo : Nat
  hi : Nat
  den : Nat
  closed : Bool
  deriving DecidableEq, Repr

/-- The interval `d` is in the band, at the two rates given. -/
def Band.contains (b : Band) (bitRate sampleRate d : Nat) : Bool :=
  decide (b.lo * sampleRate ≤ b.den * bitRate * d)
    && (decide (b.den * bitRate * d < b.hi * sampleRate)
      || (b.closed && decide (b.den * bitRate * d = b.hi * sampleRate)))

/-- The predicate a list of bands stands for: `d` is in one of them. Every predicate on 64-bit intervals
is such a list, since a band can hold one interval alone (log 6). -/
def bandsContain (l : List Band) (bitRate sampleRate d : Nat) : Bool :=
  l.any fun b => b.contains bitRate sampleRate d

/-- The configuration registers P1 to P16, latched at reset (R5, R42, R300(b)). -/
structure Cfg where
  /-- P1 `BIT_RATE`, bits per second. -/
  bitRate : Nat
  /-- P2 `SAMPLE_RATE`, samples per second. -/
  sampleRate : Nat
  /-- P3 `ONE_WINDOW`, a predicate on intervals as data (log 6). -/
  window : List Band
  /-- P4 `GLITCH_FLOOR`, a predicate on intervals as data (log 6). -/
  glitch : List Band
  /-- P5 `PREAMBLE_RUN`. -/
  preambleRun : Nat
  /-- P6 `SOP_MATCH_THRESHOLD`. -/
  sopMatchThreshold : Nat
  /-- P7 `INVALID_NIBBLE`. -/
  invalidNibble : Byte
  /-- P8 `MSGTYPE_WIDTH`. -/
  msgTypeWidth : Nat
  /-- P9 `MT_SOURCE_CAPABILITIES`. -/
  mtSourceCap : Nat
  /-- P10 `MT_REQUEST`. -/
  mtRequest : Nat
  /-- P11 `MT_VENDOR_DEFINED`. -/
  mtVendor : Nat
  /-- P12 `OBJPOS_LSB`. -/
  objPosLsb : Nat
  /-- P12 `OBJPOS_WIDTH`. -/
  objPosWidth : Nat
  /-- P13 `PDO_LIST_DEPTH`. -/
  pdoListDepth : Nat
  /-- P14 `EMIT_BYTE_FRAMES`. -/
  emitByteFrames : Bool
  /-- P15 `CRC_POLY`, before reversal. -/
  crcPoly : Word
  /-- P16, the width of a sample index in bits: what the host presents fits in it (log 7); no rule of
  the step reads it. -/
  sampleWidth : Nat
  deriving DecidableEq, Repr

/-- P3 as R111 gives it: `0.75 * Hp ≤ d ≤ 1.25 * Hp`, both bounds included. -/
def windowSpec : List Band := [{ lo := 3, hi := 5, den := 8, closed := true }]

/-- P4 as R114 gives it: `d < Hp / 2`. -/
def glitchSpec : List Band := [{ lo := 0, hi := 1, den := 4, closed := false }]

/-- A configuration with every parameter but the two rates at the value R5's table gives. -/
def Cfg.withRates (bitRate sampleRate : Nat) : Cfg where
  bitRate := bitRate
  sampleRate := sampleRate
  window := windowSpec
  glitch := glitchSpec
  preambleRun := 63
  sopMatchThreshold := 3
  invalidNibble := 0xFF#8
  msgTypeWidth := 5
  mtSourceCap := 1
  mtRequest := 2
  mtVendor := 15
  objPosLsb := 28
  objPosWidth := 4
  pdoListDepth := 7
  emitByteFrames := false
  crcPoly := 0x04C11DB7#32
  sampleWidth := 64

/-- The configuration C0 of 95_test_vectors.md §0. DESIGN CHOICE (log 4): the spec makes P1 and P2
arguments; State.reset must hold some value, and takes these two. -/
def Cfg.c0 : Cfg := Cfg.withRates 300000 6000000

/-- The free value behind P17 `DISCOVER_ID_REMAINING`, which R254 leaves OPEN: any natural number
(log 19). Nothing in Lean can evaluate it. -/
opaque Config.discoverIdExtra : Nat

/-- P17 `DISCOVER_ID_REMAINING`: any integer above 0 (R5, R254). -/
def Config.discoverIdRemaining : Nat := Config.discoverIdExtra + 1

/-- The free value read at the list index given, when `PDO_LIST_DEPTH` (P13) is configured below 7 and the
list has no such entry: the spec states no value there (log 26). Nothing in Lean can evaluate it. -/
opaque Config.absentEntry : Nat → Word

end Sys2Proof
end

