-- ==== Sys2Proof/Syntax.lean ====
section
/-! DEFINITION. The instructions: one constructor per row of spec/opcode_table.json (30_encoding.md
R104), in the table's order. A symbol and an ordered set carry no operand; a Header class carries the
16-bit Header, of which every bit is stored and reported (R38, R97). -/

namespace Sys2Proof

inductive Instr where
  -- SYM5: the 32 line symbols (R82 data, R83 K-codes, R84 invalid)
  | inv00 | inv01 | inv02 | inv03 | inv04 | inv05
  | sync3 | rst1
  | inv08
  | d1 | d4 | d5
  | inv0C
  | eop
  | d6 | d7
  | inv10
  | sync2
  | d8 | d9 | d2 | d3 | dA | dB
  | sync1 | rst2
  | dC | dD | dE | dF | d0
  | inv1F
  -- ORDSET20: the five SOP variants (R88)
  | sop | sopPrime | sopDPrime | sopPrimeDebug | sopDPrimeDebug
  -- HDR16: the five Header dispatch classes (R93, R196)
  | control (h : Header)
  | sourceCapabilities (h : Header)
  | request (h : Header)
  | vendorDefined (h : Header)
  | otherData (h : Header)
  deriving DecidableEq, Repr

/-- A code word tagged with the format the block reads it in (R80, R81, R86, R92). The format is not
in the word: the packet state selects it (R150, R154). -/
inductive Code where
  | sym5 (s : Sym)
  | ordset20 (os : BitVec 20)
  | hdr16 (h : Header)
  deriving DecidableEq, Repr

/-- Why a code word is no instruction. -/
inductive DecodeError where
  /-- No SOP variant reaches the threshold: `SOP_CLASSIFY` gives `NONE` (R136); the step answers it
  with `sop_error` (R138). -/
  | noVariant
  /-- A stored word of a length no row has. -/
  | length (nbits : Nat)
  /-- A stored word with bits set outside its format. -/
  | spareBits (nbits w : Nat)
  deriving DecidableEq, Repr

/-- The dispatch class of a Header (R196). -/
inductive Kind where
  | control | srcCap | request | vdm | other
  deriving DecidableEq, Repr

end Sys2Proof
end

