-- ==== Sys2Proof/Machine/Operands.lean ====
section
/-! DEFINITION. The pure functions that read operands out of received values: field extraction, the
4b5b table, the SOP table and its classification, the Header fields and class, the interval
predicates, the byte and bit orders, and the check of a configuration at reset. -/

namespace Sys2Proof

/-- The check R300(c) makes of a configuration at reset; one that fails is refused. -/
def Cfg.admitted (c : Cfg) : Bool :=
  decide (0 < c.bitRate) && decide (4 * c.bitRate ≤ c.sampleRate)
    && (c.msgTypeWidth == 4 || c.msgTypeWidth == 5)
    && decide (c.mtSourceCap < 2 ^ c.msgTypeWidth)
    && decide (c.mtRequest < 2 ^ c.msgTypeWidth)
    && decide (c.mtVendor < 2 ^ c.msgTypeWidth)
    && decide (c.objPosLsb + c.objPosWidth ≤ 32)

end Sys2Proof

namespace Sys2Proof.Machine

/-! ### Fields -/

/-- `EXTRACT(v, msb, lsb)` (45_field_views.md R240). -/
def extract (v msb lsb : Nat) : Nat := (v >>> lsb) % 2 ^ (msb - lsb + 1)

/-- `NDO(h) = h[14:12]`, the number of data objects (R190, R92). -/
def ndo (h : Header) : BitVec 3 := h.extractLsb' 12 3

/-- `MT(h) = h[MSGTYPE_WIDTH-1:0]`, the message type (R190, R92). -/
def mt (c : Cfg) (h : Header) : Nat := h.toNat % 2 ^ c.msgTypeWidth

/-- `KIND(h)`, the dispatch class of a Header (R196). -/
def kind (c : Cfg) (h : Header) : Kind :=
  if ndo h = 0 then .control
  else if mt c h = c.mtSourceCap then .srcCap
  else if mt c h = c.mtRequest then .request
  else if mt c h = c.mtVendor then .vdm
  else .other

/-- The object position of a Request's first object (R94, R200, parameter P12). DESIGN CHOICE (log 24):
with `OBJPOS_WIDTH = 0`, which R300(c) admits, the spec's slice has no bits; it is read as position 0, so
every Request is an invalid reference. -/
def objPos (c : Cfg) (v : Word) : Nat := v.toNat / 2 ^ c.objPosLsb % 2 ^ c.objPosWidth

/-- `bytes_le(v, n)`: the `n` bytes of `v`, least significant first (R8). -/
def bytesLE (n : Nat) {w : Nat} (v : BitVec w) : List Byte :=
  (List.range n).map fun k => v.extractLsb' (8 * k) 8

/-- `sr[k] <- b` on the 5-bit shift register (R150, LSB first by R65). -/
def setSymBit (sr : Sym) (k : Nat) (b : Bool) : Sym :=
  (sr &&& ~~~(1#5 <<< k)) ||| (if b then 1#5 <<< k else 0#5)

/-! ### 4b5b -/

/-- The 4b5b data table, nibble 0 first (R82). -/
def enc4Table : Vector Sym 16 :=
  #v[0x1E#5, 0x09#5, 0x14#5, 0x15#5, 0x0A#5, 0x0B#5, 0x0E#5, 0x0F#5,
     0x12#5, 0x13#5, 0x16#5, 0x17#5, 0x1A#5, 0x1B#5, 0x1C#5, 0x1D#5]

/-- `ENC4(n)` (R152). -/
def enc4 (n : Nibble) : Sym := enc4Table[n.toNat]'n.isLt

/-- The nibble whose data symbol `s` is, if there is one (R151, R82). -/
def nibbleOf (s : Sym) : Option Nibble :=
  ((List.finRange 16).find? fun n => enc4Table[n] == s).map BitVec.ofFin

/-- `DEC5(s)`: the nibble of a data symbol, else `INVALID_NIBBLE` (R151). -/
def dec5 (c : Cfg) (s : Sym) : Byte :=
  match nibbleOf s with
  | some n => n.zeroExtend 8
  | none => c.invalidNibble

/-! ### K-codes and the SOP table -/

/-- SYNC-1 (R83). -/
def kSync1 : Sym := 0x18#5
/-- SYNC-2 (R83). -/
def kSync2 : Sym := 0x11#5
/-- SYNC-3 (R83). -/
def kSync3 : Sym := 0x06#5
/-- RST-1 (R83). -/
def kRst1 : Sym := 0x07#5
/-- RST-2 (R83). -/
def kRst2 : Sym := 0x19#5
/-- EOP (R83, R89). -/
def kEop : Sym := 0x0D#5

/-- The six K-codes (R83). -/
def kCodes : List Sym := [kSync1, kSync2, kSync3, kRst1, kRst2, kEop]

/-- `EOP_MATCH(s)`: exact comparison with the EOP K-code (R139). -/
def eopMatch (s : Sym) : Bool := s == kEop

/-- The SOP table (R88), variant index to its four K-codes. -/
def sopPattern : Fin 5 → Vector Sym 4
  | 0 => #v[kSync1, kSync1, kSync1, kSync2]
  | 1 => #v[kSync1, kSync1, kSync3, kSync3]
  | 2 => #v[kSync1, kSync3, kSync1, kSync3]
  | 3 => #v[kSync1, kRst2, kRst2, kSync3]
  | 4 => #v[kSync1, kRst2, kSync3, kSync2]

/-- The number of positions at which the received set equals variant `v` (R136). -/
def sopScore (v : Fin 5) (rx : Vector Sym 4) : Nat :=
  ((List.finRange 4).filter fun k => rx[k] == (sopPattern v)[k]).length

/-- `SOP_CLASSIFY(rx)`: the first variant in table order that reaches the threshold (R136, P6). -/
def sopClassify (c : Cfg) (rx : Vector Sym 4) : Option (Fin 5) :=
  (List.finRange 5).find? fun v => decide (c.sopMatchThreshold ≤ sopScore v rx)

/-- The packed form of an ordered set: `o0 | o1 << 5 | o2 << 10 | o3 << 15` (R86). -/
def packSet (rx : Vector Sym 4) : BitVec 20 := rx[3] ++ rx[2] ++ rx[1] ++ rx[0]

/-- The four symbols of a packed ordered set (R86). -/
def unpackSet (os : BitVec 20) : Vector Sym 4 :=
  #v[os.extractLsb' 0 5, os.extractLsb' 5 5, os.extractLsb' 10 5, os.extractLsb' 15 5]

/-! ### Intervals -/

/-- `ONE_WINDOW(d)` (R111), parameter P3. -/
def oneWindow (c : Cfg) (d : Nat) : Bool := bandsContain c.window c.bitRate c.sampleRate d

/-- `GLITCH_FLOOR(d)` (R114), parameter P4. -/
def glitchFloor (c : Cfg) (d : Nat) : Bool := bandsContain c.glitch c.bitRate c.sampleRate d

/-- The exact distance from `a` to a later sample `b` (R7, D39). -/
def interval (a b : Sample) : Nat := b.toNat - a.toNat

/-- `floor((T0 + T1) / 2)` with the sum exact (R116, R7). -/
def midpoint (t0 t1 : Sample) : Sample := BitVec.ofNat 64 ((t0.toNat + t1.toNat) / 2)

end Sys2Proof.Machine
end

