-- ==== Sys2Proof/WellFormed.lean ====
section
/-! DEFINITION. When an instruction is well formed: a Header class carries a Header of that class
(44_packet_fsm.md R196). Symbols and ordered sets carry nothing to check. -/

namespace Sys2Proof

/-- Well-formedness under the latched configuration, on which `KIND` depends (R190, R196). -/
def Instr.wf (c : Cfg) (i : Instr) : Bool :=
  match i with
  | .control h => Machine.kind c h == .control
  | .sourceCapabilities h => Machine.kind c h == .srcCap
  | .request h => Machine.kind c h == .request
  | .vendorDefined h => Machine.kind c h == .vdm
  | .otherData h => Machine.kind c h == .other
  | .inv00 | .inv01 | .inv02 | .inv03 | .inv04 | .inv05 | .inv08 | .inv0C | .inv10 | .inv1F => true
  | .sync1 | .sync2 | .sync3 | .rst1 | .rst2 | .eop => true
  | .d0 | .d1 | .d2 | .d3 | .d4 | .d5 | .d6 | .d7 => true
  | .d8 | .d9 | .dA | .dB | .dC | .dD | .dE | .dF => true
  | .sop | .sopPrime | .sopDPrime | .sopPrimeDebug | .sopDPrimeDebug => true

end Sys2Proof
end

