-- ==== Sys2Proof/Decode.lean ====
section
/-! DEFINITION. The decoder, the encoder, and the reading of a word laid out as
spec/opcode_table.json numbers it. -/

namespace Sys2Proof

open Machine (kind sopClassify unpackSet sopPattern packSet)

/-- The 32 symbols in the order of their 5-bit values (R82, R83, R84, R85). -/
def symTable : Vector Instr 32 :=
  #v[.inv00, .inv01, .inv02, .inv03, .inv04, .inv05, .sync3, .rst1,
     .inv08, .d1, .d4, .d5, .inv0C, .eop, .d6, .d7,
     .inv10, .sync2, .d8, .d9, .d2, .d3, .dA, .dB,
     .sync1, .rst2, .dC, .dD, .dE, .dF, .d0, .inv1F]

/-- A line symbol's instruction: every 5-bit value is one (R81, R84). -/
def decodeSym (s : Sym) : Instr := symTable[s.toNat]'s.isLt

/-- The instruction of an SOP variant (R88). -/
def variantInstr : Fin 5 → Instr
  | 0 => .sop
  | 1 => .sopPrime
  | 2 => .sopDPrime
  | 3 => .sopPrimeDebug
  | 4 => .sopDPrimeDebug

/-- A received ordered set's instruction, by the tolerant match (R87, R136). -/
def decodeSet (c : Cfg) (rx : Vector Sym 4) : Except DecodeError Instr :=
  match sopClassify c rx with
  | some v => .ok (variantInstr v)
  | none => .error .noVariant

/-- A Header's instruction: its dispatch class (R196). Every 16-bit value is a Header (R195). -/
def decodeHdr (c : Cfg) (h : Header) : Instr :=
  match kind c h with
  | .control => .control h
  | .srcCap => .sourceCapabilities h
  | .request => .request h
  | .vdm => .vendorDefined h
  | .other => .otherData h

/-- The decoder, under the latched configuration. -/
def decode (c : Cfg) (w : Code) : Except DecodeError Instr :=
  match w with
  | .sym5 s => .ok (decodeSym s)
  | .ordset20 os => decodeSet c (unpackSet os)
  | .hdr16 h => .ok (decodeHdr c h)

/-! ### A word as the opcode table numbers it (log 13) -/

/-- The number of edges a symbol takes: 5 plus its number of ones (R101). The reader's table gives
every symbol row one "field" bit at this position, outside the symbol's mask. -/
def symEdges (s : Sym) : Nat := 5 + (List.finRange 5).countP fun k => s[k]

/-- The table's word of a symbol row: the symbol in bits 4:0, and nothing above but possibly the
reader's "edges" bit. -/
def tableSym (w : Nat) : Option Sym :=
  let s := BitVec.ofNat 5 w
  if w = s.toNat ∨ w = s.toNat + 2 ^ symEdges s then some s else none

/-- The code word in `nbits` stored bits with value `w`: one byte holds a symbol, two bytes a Header,
three an ordered set; a symbol of eight edges or more has a row of two bytes in the reader's table,
and is read as that symbol. -/
def tableCode (nbits w : Nat) : Except DecodeError Code :=
  match nbits with
  | 8 =>
    match tableSym w with
    | some s => .ok (.sym5 s)
    | none => .error (.spareBits 8 w)
  | 16 =>
    match tableSym w with
    | some s =>
      if 8 ≤ symEdges s then .ok (.sym5 s)
      else .ok (.hdr16 (BitVec.ofNat 16 w))
    | none => if w < 2 ^ 16 then .ok (.hdr16 (BitVec.ofNat 16 w)) else .error (.spareBits 16 w)
  | 24 => if w < 2 ^ 20 then .ok (.ordset20 (BitVec.ofNat 20 w)) else .error (.spareBits 24 w)
  | n => .error (.length n)

/-- The instruction the decoder reads from a table word, under the configuration of State.reset. -/
def decodeTableWord (nbits w : Nat) : Option Instr :=
  match tableCode nbits w with
  | .ok code => (decode Cfg.c0 code).toOption
  | .error _ => none

/-! ### The encoder -/

/-- The code word of an instruction: the symbol's value (R82, R83, R84), the ideal spelling of an
ordered set (R88), the Header itself (R92). -/
def encode : Instr → Code
  | .inv00 => .sym5 0x00#5
  | .inv01 => .sym5 0x01#5
  | .inv02 => .sym5 0x02#5
  | .inv03 => .sym5 0x03#5
  | .inv04 => .sym5 0x04#5
  | .inv05 => .sym5 0x05#5
  | .sync3 => .sym5 0x06#5
  | .rst1 => .sym5 0x07#5
  | .inv08 => .sym5 0x08#5
  | .d1 => .sym5 0x09#5
  | .d4 => .sym5 0x0A#5
  | .d5 => .sym5 0x0B#5
  | .inv0C => .sym5 0x0C#5
  | .eop => .sym5 0x0D#5
  | .d6 => .sym5 0x0E#5
  | .d7 => .sym5 0x0F#5
  | .inv10 => .sym5 0x10#5
  | .sync2 => .sym5 0x11#5
  | .d8 => .sym5 0x12#5
  | .d9 => .sym5 0x13#5
  | .d2 => .sym5 0x14#5
  | .d3 => .sym5 0x15#5
  | .dA => .sym5 0x16#5
  | .dB => .sym5 0x17#5
  | .sync1 => .sym5 0x18#5
  | .rst2 => .sym5 0x19#5
  | .dC => .sym5 0x1A#5
  | .dD => .sym5 0x1B#5
  | .dE => .sym5 0x1C#5
  | .dF => .sym5 0x1D#5
  | .d0 => .sym5 0x1E#5
  | .inv1F => .sym5 0x1F#5
  | .sop => .ordset20 0x8E318#20
  | .sopPrime => .ordset20 0x31B18#20
  | .sopDPrime => .ordset20 0x360D8#20
  | .sopPrimeDebug => .ordset20 0x36738#20
  | .sopDPrimeDebug => .ordset20 0x89B38#20
  | .control h => .hdr16 h
  | .sourceCapabilities h => .hdr16 h
  | .request h => .hdr16 h
  | .vendorDefined h => .hdr16 h
  | .otherData h => .hdr16 h

end Sys2Proof
end

