-- ==== Sys2Proof/Machine/Crc.lean ====
section
/-! DEFINITION. The CRC engine (43_crc32.md): the reflected, byte-at-a-time CRC-32. -/

namespace Sys2Proof.Machine

/-- `bitreverse32(p)[i] = p[31 - i]` (R171). -/
def bitReverse32 (p : Word) : Word :=
  (List.range 32).foldl (fun r i => if p.getLsbD (31 - i) then r ||| (1#32 <<< i) else r) 0#32

/-- One of the eight rounds of a byte, with `r` the reversed polynomial `RPOLY` (R170). -/
def crcRound (r c : Word) : Word :=
  if c.getLsbD 0 then (c >>> 1) ^^^ r else c >>> 1

/-- The eight rounds of one byte (R170). -/
def crcByte (r c : Word) (x : Byte) : Word :=
  crcRound r (crcRound r (crcRound r (crcRound r (crcRound r (crcRound r (crcRound r (crcRound r
    (c ^^^ x.zeroExtend 32))))))))

/-- `CRC_UPDATE(state, bytes)` under the polynomial `poly`, parameter P15: complement, every byte in
order, complement (R170). The polynomial is reversed once (R171). -/
def crcUpdate (poly state : Word) (bytes : List Byte) : Word :=
  let r := bitReverse32 poly
  ~~~(bytes.foldl (crcByte r) (~~~state))

end Sys2Proof.Machine
end

