-- ==== Sys2Proof/Machine/State.lean ====
section
/-! DEFINITION. The state of the block (10_state.md), its inputs and outputs as plain data, the state
after reset (R44, R300), and why a step can stop. -/

namespace Sys2Proof.Machine

/-- The packet-state-machine states (R22); the codes 10 to 15 are never held. -/
inductive St where
  | resetWait | searchPreamble | awaitSop | awaitHeader | readPayload | awaitCrc | awaitEop | done
  | halted | faulted
  deriving DecidableEq, Repr

/-- The bit-recoverer phase (R24). -/
inductive Phase where
  | boundary | mid
  deriving DecidableEq, Repr

/-- The Frame types (R97); the codes 11 to 15 are never emitted. -/
inductive FrameType where
  | preamble | sop | sopError | header | dataObject | sourcePdo | requestDo | vdmHeader | crc32
  | eop | byte
  deriving DecidableEq, Repr

/-- A Frame record, with an inclusive sample range (R96). -/
structure Frame where
  type : FrameType
  data1 : Field
  data2 : Field
  startSample : Sample
  endSample : Sample
  deriving DecidableEq, Repr

/-- A bit marker (R116). -/
structure Marker where
  sample : Sample
  value : Bool
  deriving DecidableEq, Repr

/-- The seven events (R270). -/
inductive EventKind where
  | glitch | symInvalid | sopError | eopError | crcMismatch | refError | inputFault
  deriving DecidableEq, Repr

/-- One record of the event trace: the event and the sample of the edge of its step (R270). -/
structure EventRec where
  kind : EventKind
  t : Sample
  deriving DecidableEq, Repr

/-- The event outputs, each asserted for exactly the step that signals it (R43). -/
structure Events where
  glitch : Bool
  symInvalid : Bool
  sopError : Bool
  eopError : Bool
  crcMismatch : Bool
  refError : Bool
  inputFault : Bool
  deriving DecidableEq, Repr

/-- All event outputs deasserted (R43). -/
def Events.none : Events := ⟨false, false, false, false, false, false, false⟩

/-- One edge as the host presents it (R282): its sample index and level, and the level of `stop_req`
in the step that consumes it (R285, R294; log 2). -/
structure Edge where
  t : Sample
  lvl : Bool
  stopReq : Bool
  deriving DecidableEq, Repr

structure State where
  /-- `S.st` (R22). -/
  st : St
  /-- `S.cur` (R23). -/
  cur : Sample
  /-- `S.bph` (R24). -/
  bph : Phase
  /-- `S.bit_t0` (R25). -/
  bitT0 : Sample
  /-- `S.pre_cnt` (R26). -/
  preCnt : BitVec 6
  /-- `S.pre_exp` (R27). -/
  preExp : Bool
  /-- `S.pre_start` (R28). -/
  preStart : Sample
  /-- `S.sop_rx[0..3]` (R29). -/
  sopRx : Vector Sym 4
  /-- `S.sym_sr` (R30). -/
  symSr : Sym
  /-- `S.sym_cnt` (R31). -/
  symCnt : BitVec 3
  /-- `S.sym_start` (R32). -/
  symStart : Sample
  /-- `S.unit_start` (R33). -/
  unitStart : Sample
  /-- `S.unit_sym` (R34). -/
  unitSym : BitVec 3
  /-- `S.nib_lo` (R35). -/
  nibLo : Byte
  /-- `S.byte_start` (R36). -/
  byteStart : Sample
  /-- `S.acc` (R37). -/
  acc : Word
  /-- `S.hdr` (R38). -/
  hdr : Header
  /-- `S.sop_type` (R39). -/
  sopType : BitVec 3
  /-- `S.pdo_list[0..6]` (R40). -/
  pdoList : Vector Word 7
  /-- `S.pdo_count` (R40). -/
  pdoCount : BitVec 3
  /-- `S.remaining` (R41). -/
  remaining : BitVec 3
  /-- `S.obj_index` (R41). -/
  objIndex : BitVec 3
  /-- `S.crc` (R41). -/
  crc : Word
  /-- The configuration registers (R42). -/
  cfg : Cfg
  /-- The event outputs of the step that led here (R43). -/
  ev : Events
  /-- The `stop_req` input in the current step (R285; log 2). -/
  stopReq : Bool
  /-- The `reset` input, with the configuration to latch (R286; log 3). -/
  resetReq : Option Cfg
  /-- The edges presented and not yet consumed, first at the head (R60, R282). -/
  input : List Edge
  /-- The output Frame stream, in emission order (R61). -/
  frames : List Frame
  /-- The bit-marker stream (R116). -/
  markers : List Marker
  /-- The event trace (R270, R294). -/
  trace : List EventRec
  deriving DecidableEq, Repr

/-- The faults of the model, all in states no run from reset reaches (log 11). Each is safe: the
model stops where the spec gives no register to write. -/
inductive Fault where
  /-- Raised by the symbol assembler when `S.sym_cnt` is 5 or more: `S.sym_sr` has no such bit
  (R30, R31). Safe. -/
  | symbolBit
  /-- Raised by a symbol in `AWAIT_SOP` when `S.unit_sym` is 4 or more: there is no such `S.sop_rx`
  register (R29). Safe. -/
  | sopRegister
  /-- Raised by a Source Capabilities object when `S.obj_index` is 7: the list has no such entry
  (R62, R198). Safe. -/
  | pdoEntry
  deriving DecidableEq, Repr

/-- The refusals of the model. -/
inductive Refusal where
  /-- Raised by an arm of `exec` that has no meaning yet; no arm is in that case. Safe. -/
  | notModelled (mnemonic : String)
  /-- Raised by a reset whose configuration fails the check of R300(c): "A configuration that fails
  the check is refused" (log 12). Safe. -/
  | configuration
  deriving DecidableEq, Repr

/-- The state after reset (R44, R300), under the configuration `Cfg.c0` (log 4), with no edge
presented and empty output streams. -/
def State.reset : State where
  st := .resetWait
  cur := 0#64
  bph := .boundary
  bitT0 := 0#64
  preCnt := 0#6
  preExp := true
  preStart := 0#64
  sopRx := Vector.replicate 4 0#5
  symSr := 0#5
  symCnt := 0#3
  symStart := 0#64
  unitStart := 0#64
  unitSym := 0#3
  nibLo := 0#8
  byteStart := 0#64
  acc := 0#32
  hdr := 0#16
  sopType := 0#3
  pdoList := Vector.replicate 7 0#32
  pdoCount := 0#3
  remaining := 0#3
  objIndex := 0#3
  crc := 0#32
  cfg := Cfg.c0
  ev := Events.none
  stopReq := false
  resetReq := none
  input := []
  frames := []
  markers := []
  trace := []

end Sys2Proof.Machine
end

