-- ==== Sys2Proof/Machine/Flags.lean ====
section
/-! DEFINITION. The event outputs (10_state.md R43, 60_exceptions.md R270), the block's only flags:
what asserts one, what clears them, and their codes. -/

namespace Sys2Proof.Machine

/-- Asserting one event output; none suppresses another (R279(b)). -/
def Events.assert (e : Events) : EventKind → Events
  | .glitch => { e with glitch := true }
  | .symInvalid => { e with symInvalid := true }
  | .sopError => { e with sopError := true }
  | .eopError => { e with eopError := true }
  | .crcMismatch => { e with crcMismatch := true }
  | .refError => { e with refError := true }
  | .inputFault => { e with inputFault := true }

/-- `signal EV_x` in the step that consumes the edge at `t`: the output is asserted and the trace
gets its record (R8, R270; log 15). It changes no control flow. -/
def signal (k : EventKind) (t : Sample) (s : State) : State :=
  { s with ev := s.ev.assert k, trace := s.trace ++ [⟨k, t⟩] }

/-- `signal` when a condition holds. -/
def signalIf (b : Bool) (k : EventKind) (t : Sample) (s : State) : State :=
  if b then signal k t s else s

/-- The event outputs deasserted, as at the start of every step (R43). -/
def clearEvents (s : State) : State := { s with ev := Events.none }

/-- The numeric codes of the events (R270). -/
def EventKind.code : EventKind → Nat
  | .glitch => 0
  | .symInvalid => 1
  | .sopError => 2
  | .eopError => 3
  | .crcMismatch => 4
  | .refError => 5
  | .inputFault => 6

/-- The numeric codes of the packet states (R22). -/
def St.code : St → BitVec 4
  | .resetWait => 0#4
  | .searchPreamble => 1#4
  | .awaitSop => 2#4
  | .awaitHeader => 3#4
  | .readPayload => 4#4
  | .awaitCrc => 5#4
  | .awaitEop => 6#4
  | .done => 7#4
  | .halted => 8#4
  | .faulted => 9#4

/-- The numeric codes of the Frame types (R97). -/
def FrameType.code : FrameType → BitVec 4
  | .preamble => 0#4
  | .sop => 1#4
  | .sopError => 2#4
  | .header => 3#4
  | .dataObject => 4#4
  | .sourcePdo => 5#4
  | .requestDo => 6#4
  | .vdmHeader => 7#4
  | .crc32 => 8#4
  | .eop => 9#4
  | .byte => 10#4

/-- The numeric codes of the phase (R24). -/
def Phase.code : Phase → BitVec 1
  | .boundary => 0#1
  | .mid => 1#1

end Sys2Proof.Machine
end

