-- ==== Sys2Proof/Machine/Ops.lean ====
section
/-! DEFINITION. The named operations over the state that the instructions and the step share. In every
one of them the end of the bit, symbol or unit in hand, the spec's `T1`, is `S.cur`: the step writes it
before it delivers the bit (R112, R113). -/

namespace Sys2Proof.Machine

/-- What a step or an operation answers. -/
abbrev Result := Host.Outcome State Fault Refusal

/-- Going on with the next state, if there is one. -/
def andThen (r : Result) (f : State → Result) : Result :=
  match r with
  | .next s => f s
  | .fault e => .fault e
  | .refused e => .refused e

/-! ### Outputs -/

/-- `emit Frame(type, data1, data2, start, end)` (R8, R61). -/
def emit (type : FrameType) (data1 data2 : Field) (startSample endSample : Sample) (s : State) :
    State :=
  { s with frames := s.frames ++ [⟨type, data1, data2, startSample, endSample⟩] }

/-- The bit marker of a completed bit over `[t0, t1]` (R116). -/
def mark (t0 t1 : Sample) (b : Bool) (s : State) : State :=
  { s with markers := s.markers ++ [⟨midpoint t0 t1, b⟩] }

/-! ### Entering the search; taking an error (R130, R209, R280, R119) -/

/-- The state an entry into the search leads to, by the level of `stop_req` (R130, R214). -/
def searchState (stop : Bool) : St :=
  match stop with
  | true => .halted
  | false => .searchPreamble

/-- `enter_search(S, t, stop_req)` (R130). -/
def enterSearch (t : Sample) (s : State) : State :=
  { s with
    st := searchState s.stopReq
    preCnt := 0#6
    preExp := true
    preStart := t }

/-- `restart(S, t, stop_req)`, the block's trap entry on a framing error (R209, R271, R280): it saves
nothing, and its target is the preamble search at the cursor. There is no return from it (R281): the
search that follows is ordinary operation. -/
def restart (s : State) : State := enterSearch s.cur s

/-- `input_fault` of an edge at `t` below the cursor (R119, R276): the one other transfer on an error.
No register but `S.st` is written. -/
def inputFault (t : Sample) (s : State) : State :=
  { signal .inputFault t s with st := .faulted }

/-- The state a reset gives (R300(a), (b), (d)): the reset state under the configuration latched. No
edge is consumed, and the `stop_req` input is the host's. -/
def resetWith (c : Cfg) (s : State) : State :=
  { State.reset with cfg := c, input := s.input, stopReq := s.stopReq }

/-- The `reset` input asserted with a configuration (R286, R300): refused when the configuration fails
the check of R300(c). -/
def takeReset (c : Cfg) (s : State) : Result :=
  if c.admitted then .next (resetWith c s) else .refused .configuration

/-! ### Positioning and the trailing edge -/

/-- `position(S, t, stop_req)` (R191). -/
def position (t : Sample) (s : State) : State :=
  enterSearch t { s with cur := t, bph := .boundary }

/-- `skip_trailing(S, t, stop_req)` (R207). -/
def skipTrailing (t : Sample) (s : State) : State :=
  enterSearch t { s with cur := t }

/-! ### Units -/

/-- The start of the next unit at the end of this one: what every unit boundary writes (R33, R34, R37). -/
def openUnit (s : State) : State :=
  { s with unitStart := s.cur, unitSym := 0#3, acc := 0#32 }

/-- `enter_sop(S, t)` (R193). -/
def enterSop (s : State) : State :=
  openUnit { s with st := .awaitSop, symCnt := 0#3 }

/-- `enter_header(S, t)` (R194). -/
def enterHeader (s : State) : State :=
  openUnit { s with st := .awaitHeader, crc := 0#32 }

/-- `UNIT_SYMS(st)`: the symbols of the unit a state collects, for the states whose unit is more than
one symbol (R72, R135, R154). -/
def unitSyms : St → Option Nat
  | .awaitSop => some 4
  | .awaitHeader => some 4
  | .readPayload => some 8
  | .awaitCrc => some 8
  | .awaitEop => none
  | .resetWait => none
  | .searchPreamble => none
  | .done => none
  | .halted => none
  | .faulted => none

/-- The symbol in hand is the last of its unit: with it counted, `S.unit_sym` is `UNIT_SYMS(S.st)`
(R135, R154). -/
def lastOfUnit (s : State) : Bool := unitSyms s.st == some (s.unitSym.toNat + 1)

/-! ### Preamble (R131, R132) -/

/-- `preamble_found(S, T1)` (R132). -/
def preambleFound (s : State) : State :=
  enterSop (emit .preamble 1#64 0#64 s.preStart s.cur s)

/-- One bit of the preamble search counted or discarded: the first half of R131. -/
def preambleCount (b : Bool) (s : State) : State :=
  if b = s.preExp then { s with preCnt := s.preCnt + 1#6, preExp := !s.preExp }
  else { s with preCnt := 0#6, preExp := true, preStart := s.cur }

/-- `preamble_bit(S, b, T0, T1, stop_req)` (R131, R133). -/
def preambleBit (b : Bool) (s : State) : State :=
  let s1 := preambleCount b s
  if s1.preCnt.toNat = s1.cfg.preambleRun then preambleFound s1
  else if s1.stopReq then { s1 with st := .halted }
  else s1

/-! ### Symbols by position (R150) -/

/-- `sop_symbol` up to the count (R135): the symbol is stored raw. The classification of the fourth is
the step's (`runUnit`). -/
def sopSymbol (x : Sym) (s : State) : Result :=
  if h : s.unitSym.toNat < 4 then
    .next { s with sopRx := s.sopRx.set s.unitSym.toNat x h, unitSym := s.unitSym + 1#3 }
  else .fault .sopRegister

/-- The value of byte `k` of a unit at its place in the accumulator (R154, R67). -/
def bytePlace (x : Byte) (k : Nat) : Word := x.zeroExtend 32 <<< (8 * k)

/-- `byte <- (nib_lo | (n << 4)) mod 256` (R153). -/
def byteOf (lo n : Byte) : Byte := lo ||| (n <<< 4)

/-- The second nibble of a byte completes it: the accumulator and the Byte Frame (R153, R154, R155).
What the completed unit does is the step's (`runUnit`). -/
def byteDone (x : Byte) (s : State) : State :=
  let s1 := { s with
    unitSym := s.unitSym + 1#3
    acc := s.acc ||| bytePlace x (s.unitSym.toNat / 2) }
  if s.cfg.emitByteFrames then emit .byte (x.zeroExtend 64) 0#64 s.byteStart s.cur s1 else s1

/-- `data_symbol(S, s, Ts, T1, stop_req)` for the decoded value `n` (R153). -/
def dataSymbol (n : Byte) (s : State) : State :=
  let s1 := signalIf (n == s.cfg.invalidNibble) .symInvalid s.cur s
  if s1.unitSym.getLsbD 0 then byteDone (byteOf s1.nibLo n) s1
  else { s1 with nibLo := n, byteStart := s1.symStart, unitSym := s1.unitSym + 1#3 }

/-- `eop_symbol(S, s, Ts, T1, stop_req)` (R206). -/
def eopSymbol (x : Sym) (s : State) : State :=
  if eopMatch x then { emit .eop 1#64 0#64 s.symStart s.cur s with st := .done }
  else restart (signal .eopError s.cur (emit .eop 0#64 0#64 s.symStart s.cur s))

/-- What the symbol `x` does in the position `S.st` gives it (R150): the case of `symbol_bit`. A state
that receives no symbols has no case, so nothing is written (R115; log 9). -/
def symbolMeaning (x : Sym) (s : State) : Result :=
  match s.st with
  | .awaitSop => sopSymbol x s
  | .awaitHeader => .next (dataSymbol (dec5 s.cfg x) s)
  | .readPayload => .next (dataSymbol (dec5 s.cfg x) s)
  | .awaitCrc => .next (dataSymbol (dec5 s.cfg x) s)
  | .awaitEop => .next (eopSymbol x s)
  | .resetWait => .next s
  | .searchPreamble => .next s
  | .done => .next s
  | .halted => .next s
  | .faulted => .next s

/-! ### Ordered sets (R137, R138) -/

/-- `sop_found(S, v, T1)` (R137). -/
def sopFound (v : BitVec 3) (s : State) : State :=
  enterHeader { emit .sop (v.zeroExtend 64) 0#64 s.unitStart s.cur s with sopType := v }

/-- `sop_error(S, T1, stop_req)` (R138). -/
def sopError (s : State) : State :=
  restart (signal .sopError s.cur (emit .sopError 0#64 0#64 s.unitStart s.cur s))

/-! ### Header (R195) -/

/-- `pdo_clear(S)` (R203). -/
def pdoClear (s : State) : State := { s with pdoCount := 0#3 }

/-- `header_done(S, h, T1, stop_req)` (R195), with the class of the Header already decoded: `srcCap`
says that `KIND(h) = SRC_CAP`. -/
def headerDone (srcCap : Bool) (h : Header) (s : State) : State :=
  let s1 := emit .header (h.zeroExtend 64) (s.sopType.zeroExtend 64) s.unitStart s.cur
    { s with hdr := h, crc := crcUpdate s.cfg.crcPoly s.crc (bytesLE 2 h) }
  let s2 := openUnit { s1 with remaining := ndo h, objIndex := 0#3 }
  let s3 := if srcCap && ndo h != 0#3 then pdoClear s2 else s2
  { s3 with st := if ndo h = 0#3 then .awaitCrc else .readPayload }

/-! ### Payload (R197 to R203) -/

/-- The list with `v` written to entry `k`, where the list has such an entry: `PDO_LIST_DEPTH` entries
(P13) of the seven registers of R40. DESIGN CHOICE (log 26): past a depth configured below 7 nothing is
written. -/
def writePdo (c : Cfg) (k : Nat) (v : Word) (l : Vector Word 7) : Vector Word 7 :=
  if h : k < 7 ∧ k < c.pdoListDepth then l.set k v h.1 else l

/-- `source_pdo(S, v, us, T1)` (R198). -/
def sourcePdo (v : Word) (us : Sample) (s : State) : Result :=
  if s.objIndex.toNat < 7 then
    .next { emit .sourcePdo (v.zeroExtend 64) 0#64 us s.cur s with
      pdoList := writePdo s.cfg s.objIndex.toNat v s.pdoList
      pdoCount := s.objIndex + 1#3 }
  else .fault .pdoEntry

/-- The invalid-reference sentinel (R200). -/
def refSentinel : Field := 0xFFFFFFFFFFFFFFFF#64

/-- The value of list entry `k`: its register where the list has such an entry, `PDO_LIST_DEPTH` entries
(P13) of the seven registers of R40; else a free value (log 26). -/
def readPdo (c : Cfg) (k : Nat) (l : Vector Word 7) : Word :=
  if h : k < 7 ∧ k < c.pdoListDepth then l[k]'h.1 else Config.absentEntry k

/-- The list entry an object position refers to: entry `pos - 1` when `1 ≤ pos ≤ S.pdo_count` (R200,
R73). -/
def pdoAt (pos : Nat) (s : State) : Option Word :=
  if 1 ≤ pos ∧ pos ≤ s.pdoCount.toNat then some (readPdo s.cfg (pos - 1) s.pdoList) else none

/-- `RESOLVE(S, v, T1)`: the value, and the state with `EV_REF_ERROR` signalled where there is none
(R200). -/
def resolve (v : Word) (s : State) : Field × State :=
  match pdoAt (objPos s.cfg v) s with
  | some p => (p.zeroExtend 64, s)
  | none => (refSentinel, signal .refError s.cur s)

/-- A generic Data Object (R202, R97). -/
def dataObject (v : Word) (us : Sample) (s : State) : State :=
  emit .dataObject (v.zeroExtend 64) 0#64 us s.cur s

/-- `request_object(S, v, us, T1)` (R199). -/
def requestObject (v : Word) (us : Sample) (s : State) : State :=
  if s.objIndex = 0#3 then
    let r := resolve v s
    emit .requestDo (v.zeroExtend 64) r.1 us s.cur r.2
  else dataObject v us s

/-- `vdm_object(S, v, us, T1)` (R201). -/
def vdmObject (v : Word) (us : Sample) (s : State) : State :=
  if s.objIndex = 0#3 then emit .vdmHeader (v.zeroExtend 64) 0#64 us s.cur s
  else dataObject v us s

/-- What `object_done` does after its class's part (R197, R204). -/
def nextObject (s : State) : State :=
  let s1 := openUnit { s with objIndex := s.objIndex + 1#3, remaining := s.remaining - 1#3 }
  if s1.remaining = 0#3 then { s1 with st := .awaitCrc } else s1

/-- `object_done(S, v, T1, stop_req)` for the object in the accumulator, with the part of the
message's class as an argument (R197). -/
def objectDone (part : Word → Sample → State → Result) (s : State) : Result :=
  andThen (part s.acc s.unitStart { s with crc := crcUpdate s.cfg.crcPoly s.crc (bytesLE 4 s.acc) })
    fun s1 => .next (nextObject s1)

/-- A Header class at work: on its Header, and again on each Data Object of its message (R195, R197;
log 8). -/
def headerMeaning (srcCap : Bool) (h : Header) (part : Word → Sample → State → Result) (s : State) :
    Result :=
  if s.st = .readPayload then objectDone part s else .next (headerDone srcCap h s)

/-! ### CRC trailer (R205) -/

/-- `crc_done(S, rx, T1, stop_req)` for the trailer in the accumulator (R205). -/
def crcDone (s : State) : State :=
  let s1 := emit .crc32 (s.acc.zeroExtend 64) (s.crc.zeroExtend 64) s.unitStart s.cur s
  let s2 := signalIf (s.acc != s.crc) .crcMismatch s.cur s1
  openUnit { s2 with st := .awaitEop }

end Sys2Proof.Machine
end

