-- ==== Sys2Proof/Machine/DataSymbols.lean ====
section
/-! DEFINITION. The 16 data symbols (30_encoding.md R82), each by its position (R150): a nibble in a
data position (R151, R153), a mismatch in an SOP position (R98(b)), an EOP failure in the EOP position
(R98(c)). -/

namespace Sys2Proof.Machine

/-- Symbol 0x1E, nibble 0x0 (R82, R150). -/
def execD0 (s : State) : Result := symbolMeaning 0x1E#5 s

/-- Symbol 0x09, nibble 0x1 (R82, R150). -/
def execD1 (s : State) : Result := symbolMeaning 0x09#5 s

/-- Symbol 0x14, nibble 0x2 (R82, R150). -/
def execD2 (s : State) : Result := symbolMeaning 0x14#5 s

/-- Symbol 0x15, nibble 0x3 (R82, R150). -/
def execD3 (s : State) : Result := symbolMeaning 0x15#5 s

/-- Symbol 0x0A, nibble 0x4 (R82, R150). -/
def execD4 (s : State) : Result := symbolMeaning 0x0A#5 s

/-- Symbol 0x0B, nibble 0x5 (R82, R150). -/
def execD5 (s : State) : Result := symbolMeaning 0x0B#5 s

/-- Symbol 0x0E, nibble 0x6 (R82, R150). -/
def execD6 (s : State) : Result := symbolMeaning 0x0E#5 s

/-- Symbol 0x0F, nibble 0x7 (R82, R150). -/
def execD7 (s : State) : Result := symbolMeaning 0x0F#5 s

/-- Symbol 0x12, nibble 0x8 (R82, R150). -/
def execD8 (s : State) : Result := symbolMeaning 0x12#5 s

/-- Symbol 0x13, nibble 0x9 (R82, R150). -/
def execD9 (s : State) : Result := symbolMeaning 0x13#5 s

/-- Symbol 0x16, nibble 0xA (R82, R150). -/
def execDA (s : State) : Result := symbolMeaning 0x16#5 s

/-- Symbol 0x17, nibble 0xB (R82, R150). -/
def execDB (s : State) : Result := symbolMeaning 0x17#5 s

/-- Symbol 0x1A, nibble 0xC (R82, R150). -/
def execDC (s : State) : Result := symbolMeaning 0x1A#5 s

/-- Symbol 0x1B, nibble 0xD (R82, R150). -/
def execDD (s : State) : Result := symbolMeaning 0x1B#5 s

/-- Symbol 0x1C, nibble 0xE (R82, R150). -/
def execDE (s : State) : Result := symbolMeaning 0x1C#5 s

/-- Symbol 0x1D, nibble 0xF (R82, R150). -/
def execDF (s : State) : Result := symbolMeaning 0x1D#5 s

end Sys2Proof.Machine
end

