-- ==== Sys2Proof/Machine/Headers.lean ====
section
/-! DEFINITION. The five Header dispatch classes (30_encoding.md R93, 44_packet_fsm.md R196): what the
block does when the Header completes (R195) and when each Data Object of the message completes (R197).
The step runs a class in `AWAIT_HEADER` and in `READ_PAYLOAD` only (log 8, log 10). -/

namespace Sys2Proof.Machine

/-- A control message: no payload, so no part in `object_done` (R99, R197; log 17). -/
def execControl (h : Header) (s : State) : Result :=
  headerMeaning false h (fun _ _ s1 => .next s1) s

/-- Source Capabilities: the list is cleared, then refilled one entry per object (R195, R198, R203). -/
def execSourceCapabilities (h : Header) (s : State) : Result :=
  headerMeaning true h sourcePdo s

/-- Request: the first object is resolved against the list (R199, R200). -/
def execRequest (h : Header) (s : State) : Result :=
  headerMeaning false h (fun v us s1 => .next (requestObject v us s1)) s

/-- Vendor Defined: a VDM Header, then generic objects (R201). -/
def execVendorDefined (h : Header) (s : State) : Result :=
  headerMeaning false h (fun v us s1 => .next (vdmObject v us s1)) s

/-- Any other message with a payload: generic objects (R202). -/
def execOtherData (h : Header) (s : State) : Result :=
  headerMeaning false h (fun v us s1 => .next (dataObject v us s1)) s

end Sys2Proof.Machine
end

