-- ==== Sys2Proof/Machine/InvalidSymbols.lean ====
section
/-! DEFINITION. The ten invalid symbols (30_encoding.md R84), legal to receive: no nibble in a data
position (R98(a)), a mismatch in an SOP position (R98(b)), an EOP failure in the EOP position
(R98(c)). -/

namespace Sys2Proof.Machine

/-- Invalid symbol 0x00 (R84, R150). -/
def execInv00 (s : State) : Result := symbolMeaning 0x00#5 s

/-- Invalid symbol 0x01 (R84, R150). -/
def execInv01 (s : State) : Result := symbolMeaning 0x01#5 s

/-- Invalid symbol 0x02 (R84, R150). -/
def execInv02 (s : State) : Result := symbolMeaning 0x02#5 s

/-- Invalid symbol 0x03 (R84, R150). -/
def execInv03 (s : State) : Result := symbolMeaning 0x03#5 s

/-- Invalid symbol 0x04 (R84, R150). -/
def execInv04 (s : State) : Result := symbolMeaning 0x04#5 s

/-- Invalid symbol 0x05 (R84, R150). -/
def execInv05 (s : State) : Result := symbolMeaning 0x05#5 s

/-- Invalid symbol 0x08 (R84, R150). -/
def execInv08 (s : State) : Result := symbolMeaning 0x08#5 s

/-- Invalid symbol 0x0C (R84, R150). -/
def execInv0C (s : State) : Result := symbolMeaning 0x0C#5 s

/-- Invalid symbol 0x10 (R84, R150). -/
def execInv10 (s : State) : Result := symbolMeaning 0x10#5 s

/-- Invalid symbol 0x1F (R84, R150). -/
def execInv1F (s : State) : Result := symbolMeaning 0x1F#5 s

end Sys2Proof.Machine
end

