-- ==== Sys2Proof/Machine/KCodes.lean ====
section
/-! DEFINITION. The six K-codes (30_encoding.md R83), each by its position (R150): an SOP symbol
(R135, R136), no nibble in a data position (R98(a)), the EOP match or its failure (R139, R206). -/

namespace Sys2Proof.Machine

/-- SYNC-1, symbol 0x18 (R83, R150). -/
def execSync1 (s : State) : Result := symbolMeaning 0x18#5 s

/-- SYNC-2, symbol 0x11 (R83, R150). -/
def execSync2 (s : State) : Result := symbolMeaning 0x11#5 s

/-- SYNC-3, symbol 0x06 (R83, R150). -/
def execSync3 (s : State) : Result := symbolMeaning 0x06#5 s

/-- RST-1, symbol 0x07 (R83, R150). -/
def execRst1 (s : State) : Result := symbolMeaning 0x07#5 s

/-- RST-2, symbol 0x19 (R83, R150). -/
def execRst2 (s : State) : Result := symbolMeaning 0x19#5 s

/-- EOP, symbol 0x0D (R83, R150). -/
def execEop (s : State) : Result := symbolMeaning 0x0D#5 s

end Sys2Proof.Machine
end

