-- ==== Sys2Proof/Machine/OrderedSets.lean ====
section
/-! DEFINITION. The five SOP variants (30_encoding.md R88): what the block does when the fourth symbol
of an ordered set completes and the set is classified as the variant (R136, R137). -/

namespace Sys2Proof.Machine

/-- SOP, variant 0 (R88, R137). -/
def execSop (s : State) : Result := .next (sopFound 0#3 s)

/-- SOP', variant 1 (R88, R137). -/
def execSopPrime (s : State) : Result := .next (sopFound 1#3 s)

/-- SOP'', variant 2 (R88, R137). -/
def execSopDPrime (s : State) : Result := .next (sopFound 2#3 s)

/-- SOP' Debug, variant 3 (R88, R137). -/
def execSopPrimeDebug (s : State) : Result := .next (sopFound 3#3 s)

/-- SOP'' Debug, variant 4 (R88, R137). -/
def execSopDPrimeDebug (s : State) : Result := .next (sopFound 4#3 s)

end Sys2Proof.Machine
end

