-- ==== Sys2Proof/Machine/Dispatch.lean ====
section
/-! DEFINITION. The dispatch of an instruction to its meaning, one arm per constructor. -/

namespace Sys2Proof.Machine

def exec (i : Instr) (s : State) : Host.Outcome State Fault Refusal :=
  match i with
  | .inv00 => Sys2Proof.Machine.execInv00 s
  | .inv01 => Sys2Proof.Machine.execInv01 s
  | .inv02 => Sys2Proof.Machine.execInv02 s
  | .inv03 => Sys2Proof.Machine.execInv03 s
  | .inv04 => Sys2Proof.Machine.execInv04 s
  | .inv05 => Sys2Proof.Machine.execInv05 s
  | .sync3 => Sys2Proof.Machine.execSync3 s
  | .rst1 => Sys2Proof.Machine.execRst1 s
  | .inv08 => Sys2Proof.Machine.execInv08 s
  | .d1 => Sys2Proof.Machine.execD1 s
  | .d4 => Sys2Proof.Machine.execD4 s
  | .d5 => Sys2Proof.Machine.execD5 s
  | .inv0C => Sys2Proof.Machine.execInv0C s
  | .eop => Sys2Proof.Machine.execEop s
  | .d6 => Sys2Proof.Machine.execD6 s
  | .d7 => Sys2Proof.Machine.execD7 s
  | .inv10 => Sys2Proof.Machine.execInv10 s
  | .sync2 => Sys2Proof.Machine.execSync2 s
  | .d8 => Sys2Proof.Machine.execD8 s
  | .d9 => Sys2Proof.Machine.execD9 s
  | .d2 => Sys2Proof.Machine.execD2 s
  | .d3 => Sys2Proof.Machine.execD3 s
  | .dA => Sys2Proof.Machine.execDA s
  | .dB => Sys2Proof.Machine.execDB s
  | .sync1 => Sys2Proof.Machine.execSync1 s
  | .rst2 => Sys2Proof.Machine.execRst2 s
  | .dC => Sys2Proof.Machine.execDC s
  | .dD => Sys2Proof.Machine.execDD s
  | .dE => Sys2Proof.Machine.execDE s
  | .dF => Sys2Proof.Machine.execDF s
  | .d0 => Sys2Proof.Machine.execD0 s
  | .inv1F => Sys2Proof.Machine.execInv1F s
  | .sop => Sys2Proof.Machine.execSop s
  | .sopPrime => Sys2Proof.Machine.execSopPrime s
  | .sopDPrime => Sys2Proof.Machine.execSopDPrime s
  | .sopPrimeDebug => Sys2Proof.Machine.execSopPrimeDebug s
  | .sopDPrimeDebug => Sys2Proof.Machine.execSopDPrimeDebug s
  | .control h => Sys2Proof.Machine.execControl h s
  | .sourceCapabilities h => Sys2Proof.Machine.execSourceCapabilities h s
  | .request h => Sys2Proof.Machine.execRequest h s
  | .vendorDefined h => Sys2Proof.Machine.execVendorDefined h s
  | .otherData h => Sys2Proof.Machine.execOtherData h s

end Sys2Proof.Machine
end

