-- ==== Sys2Proof/Machine/Pipeline.lean ====
section
/-! DEFINITION. The pull pipeline that one edge drives (00_scope.md R6, 40_bit_recovery.md R110): bit
recovery, the delivery of a bit, symbol assembly, and the running of the symbol, ordered set or Header
class that completes. -/

namespace Sys2Proof.Machine

/-! ### Units (R135, R154) -/

/-- The unit whose last symbol has been counted: the ordered set is decoded and run, or fails (R135 to
R138); the Header is decoded and run (R195); the message's class is run on its object (R197); the
trailer is compared (R205). -/
def runUnit (s : State) : Result :=
  match s.st with
  | .awaitSop =>
    match decode s.cfg (.ordset20 (packSet s.sopRx)) with
    | .ok i => exec i s
    | .error _ => .next (sopError s)
  | .awaitHeader => exec (decodeHdr s.cfg (s.acc.truncate 16)) s
  | .readPayload => exec (decodeHdr s.cfg s.hdr) s
  | .awaitCrc => .next (crcDone s)
  | .awaitEop => .next s
  | .resetWait => .next s
  | .searchPreamble => .next s
  | .done => .next s
  | .halted => .next s
  | .faulted => .next s

/-! ### Symbols (R150) -/

/-- The symbol in `S.sym_sr` is decoded and run; if it is the last of its unit, the unit follows. -/
def runSymbol (s : State) : Result :=
  andThen (exec (decodeSym s.symSr) s) fun s1 => if lastOfUnit s then runUnit s1 else .next s1

/-- One bit of a symbol placed in `S.sym_sr` and counted: the first half of `symbol_bit` (R150). -/
def shiftBit (b : Bool) (t0 : Sample) (s : State) : State :=
  let s1 := if s.symCnt = 0#3 then { s with symSr := 0#5, symStart := t0 } else s
  { s1 with symSr := setSymBit s1.symSr s1.symCnt.toNat b, symCnt := s1.symCnt + 1#3 }

/-- `symbol_bit(S, b, T0, T1, stop_req)` (R150). -/
def symbolBit (b : Bool) (t0 : Sample) (s : State) : Result :=
  if s.symCnt.toNat < 5 then
    let s1 := shiftBit b t0 s
    if s1.symCnt = 5#3 then runSymbol { s1 with symCnt := 0#3 } else .next s1
  else .fault .symbolBit

/-! ### Bits (R112 to R116) -/

/-- `deliver_bit(S, b, T0, T1, stop_req)` (R115). -/
def deliverBit (b : Bool) (t0 : Sample) (s : State) : Result :=
  match s.st with
  | .searchPreamble => .next (preambleBit b s)
  | .awaitSop => symbolBit b t0 s
  | .awaitHeader => symbolBit b t0 s
  | .readPayload => symbolBit b t0 s
  | .awaitCrc => symbolBit b t0 s
  | .awaitEop => symbolBit b t0 s
  | .resetWait => .next s
  | .done => .next s
  | .halted => .next s
  | .faulted => .next s

/-- The mid-bit transition of a logical one, not yet complete (R112). -/
def enterMid (t : Sample) (s : State) : State :=
  { s with bitT0 := s.cur, cur := t, bph := .mid }

/-- A bit completed over `[t0, t]`: the cursor, the marker (R112, R113, R116). -/
def closeBit (b : Bool) (t0 t : Sample) (s : State) : State :=
  mark t0 t b { s with cur := t }

/-- `boundary_edge(S, t, stop_req)` (R112, R114). -/
def boundaryEdge (t : Sample) (s : State) : Result :=
  let d := interval s.cur t
  let s1 := signalIf (glitchFloor s.cfg d) .glitch t s
  if oneWindow s.cfg d then .next (enterMid t s1)
  else deliverBit false s.cur (closeBit false s.cur t s1)

/-- `mid_edge(S, t, stop_req)` (R113). -/
def midEdge (t : Sample) (s : State) : Result :=
  deliverBit true s.bitT0 (closeBit true s.bitT0 t { s with bph := .boundary })

/-! ### Edges (R110) -/

/-- The per-edge dispatch, for an edge the block consumes (R110, R279(a)). -/
def takeEdge (t : Sample) (s : State) : Result :=
  match s.st with
  | .halted => .next s
  | .faulted => .next s
  | .resetWait => .next (position t s)
  | .done => if t < s.cur then .next (inputFault t s) else .next (skipTrailing t s)
  | .searchPreamble | .awaitSop | .awaitHeader | .readPayload | .awaitCrc | .awaitEop =>
    if t < s.cur then .next (inputFault t s)
    else
      match s.bph with
      | .boundary => boundaryEdge t s
      | .mid => midEdge t s

/-- The state takes no step until reset (R287(b), (c)). -/
def quiescent (s : State) : Bool := s.st == .halted || s.st == .faulted

/-- The edge at the head is consumed and the `stop_req` level of its step sampled (R60, R285; log 2). -/
def consume (e : Edge) (rest : List Edge) (s : State) : State :=
  { s with input := rest, stopReq := e.stopReq }

/-- The step without a reset: the event outputs are deasserted; with no edge, or quiescent, the block
holds (R43, R287); else it takes the edge at the head (R110). -/
def edgeStep (s : State) : Result :=
  let s0 := clearEvents s
  if quiescent s0 then .next s0
  else
    match s0.input with
    | [] => .next s0
    | e :: rest => takeEdge e.t (consume e rest s0)

/-- The whole step: `reset` has priority over every other input (R286, R279(a)). -/
def blockStep (s : State) : Result :=
  match s.resetReq with
  | some c => takeReset c s
  | none => edgeStep s

end Sys2Proof.Machine
end

