-- ==== Sys2Proof/Machine/Fetch.lean ====
section
/-! DEFINITION. Placing one code word where the next step completes and runs it (log 14): all of the
word but the edge that ends its last bit has been received, and that edge is at the head of the input. -/

namespace Sys2Proof.Machine

/-- The nominal bit period in whole samples, `floor(SAMPLE_RATE / BIT_RATE)`: outside the window, so an
edge that far from a boundary closes a zero (R111, R112). -/
def bitPeriod (c : Cfg) : Nat := c.sampleRate / c.bitRate

/-- The last edge of a bit of value `b` presented: from the boundary for a zero, in the second half for
a one (R112, R113). -/
def presentLastEdge (b : Bool) (s : State) : State :=
  { s with
    bph := if b then .mid else .boundary
    bitT0 := if b then s.cur else s.bitT0
    input := ⟨s.cur + BitVec.ofNat 64 (bitPeriod s.cfg), false, s.stopReq⟩ :: s.input
    resetReq := none }

/-- Four bits of the symbol `x` received in state `st`, with `k` symbols of the unit before it, and its
fifth bit's last edge presented. -/
def presentSymbol (st : St) (k : BitVec 3) (x : Sym) (s : State) : State :=
  presentLastEdge (x.getLsbD 4)
    { s with st := st, unitSym := k, symCnt := 4#3, symSr := x &&& 0x0F#5, symStart := s.cur }

/-- The position a symbol's row is about: the EOP position for EOP (R139), an SOP position for the
other K-codes (R136), a data position for the rest (R151). -/
def homeState (x : Sym) : St :=
  if eopMatch x then .awaitEop else if kCodes.contains x then .awaitSop else .awaitHeader

/-- An ordered set whose first three symbols have been received. -/
def presentSet (os : BitVec 20) (s : State) : State :=
  let rx := unpackSet os
  presentSymbol .awaitSop 3#3 rx[3] { s with sopRx := rx.set 3 s.sopRx[3] }

/-- A Header whose first three symbols have been received (R153, R154). -/
def presentHeader (h : Header) (s : State) : State :=
  presentSymbol .awaitHeader 3#3 (enc4 (h.extractLsb' 12 4))
    { s with acc := (h.extractLsb' 0 8).zeroExtend 32, nibLo := (h.extractLsb' 8 4).zeroExtend 8 }

/-- A code word placed for the next step. -/
def presentCode (w : Code) (s : State) : State :=
  match w with
  | .sym5 x => presentSymbol (homeState x) 0#3 x s
  | .ordset20 os => presentSet os s
  | .hdr16 h => presentHeader h s

/-- A table word placed for the next step; a word the decoder rejects places nothing. -/
def presentTableWord (nbits w : Nat) (s : State) : State :=
  match tableCode nbits w with
  | .ok code => presentCode code s
  | .error _ => s

end Sys2Proof.Machine
end

