-- ==== Sys2Proof/Machine/Step.lean ====
section
/-! DEFINITION. One step of the block (00_scope.md R6, 40_bit_recovery.md R110), and the placing of a
word where the next step runs it. -/

namespace Sys2Proof.Machine

/-- One step: a reset, the consumption of one edge with every consequence, or a hold. -/
def step (s : State) : Host.Outcome State Fault Refusal := blockStep s

/-- `s` with the table word placed so that the very next step completes and runs it (log 14). -/
def State.withFetchWord (s : State) (nbits w : Nat) : State := presentTableWord nbits w s

end Sys2Proof.Machine
end

