-- ==== Sys2Proof/Machine/Views.lean ====
section
/-! DEFINITION. The consumer-side field views of a Frame's data (45_field_views.md). The block's
behaviour depends on none of them. Every view is a sum type keyed by its tag (R241), and every field is
an `EXTRACT` of its range (R240). -/

namespace Sys2Proof.Machine

/-- One bit of a value as a flag. -/
def flagBit (v k : Nat) : Bool := extract v k k == 1

/-! ### Header (R242) -/

/-- Header bit 8 under the SOP type (R242, D43). -/
inductive RoleView where
  | portPowerRole (b : Bool)
  | cablePlug (b : Bool)
  | raw (b : Bool)
  deriving DecidableEq, Repr

/-- Header bit 5 under the SOP type (R242, D43): without meaning for SOP' and SOP''. -/
inductive DataRoleView where
  | portDataRole (b : Bool)
  | noMeaning
  | raw (b : Bool)
  deriving DecidableEq, Repr

/-- The Header view (R242). -/
structure HeaderView where
  extended : Bool
  numberOfDataObjects : Nat
  messageId : Nat
  role : RoleView
  specificationRevision : Nat
  dataRole : DataRoleView
  messageType : Nat
  deriving DecidableEq, Repr

/-- Bit 8 by SOP type (R242; log 19). -/
def roleView (h sopType : Nat) : RoleView :=
  if sopType = 0 then .portPowerRole (flagBit h 8)
  else if sopType = 1 ∨ sopType = 2 then .cablePlug (flagBit h 8)
  else .raw (flagBit h 8)

/-- Bit 5 by SOP type (R242; log 19). -/
def dataRoleView (h sopType : Nat) : DataRoleView :=
  if sopType = 0 then .portDataRole (flagBit h 5)
  else if sopType = 1 ∨ sopType = 2 then .noMeaning
  else .raw (flagBit h 5)

/-- The view of a HEADER Frame (R242). -/
def headerView (c : Cfg) (data1 data2 : Field) : HeaderView :=
  let h := data1.toNat % 2 ^ 16
  { extended := flagBit h 15
    numberOfDataObjects := extract h 14 12
    messageId := extract h 11 9
    role := roleView h data2.toNat
    specificationRevision := extract h 7 6
    dataRole := dataRoleView h data2.toNat
    messageType := mt c (BitVec.ofNat 16 h) }

/-! ### Source PDO (R243 to R249) -/

/-- Fixed Supply (R244); voltages in mV and currents in mA (R255). -/
structure FixedSupply where
  dualRolePower : Bool
  usbSuspendSupported : Bool
  unconstrainedPower : Bool
  usbCommunicationsCapable : Bool
  dualRoleData : Bool
  unchunkedExtendedMessagesSupported : Bool
  eprModeCapable : Bool
  peakCurrent : Nat
  voltageMV : Nat
  maxCurrentMA : Nat
  deriving DecidableEq, Repr

/-- Battery (R245). -/
structure BatterySupply where
  maxVoltageMV : Nat
  minVoltageMV : Nat
  maxAllowablePowerMW : Nat
  deriving DecidableEq, Repr

/-- Variable Supply (R246). -/
structure VariableSupply where
  maxVoltageMV : Nat
  minVoltageMV : Nat
  maxCurrentMA : Nat
  deriving DecidableEq, Repr

/-- SPR Programmable Power Supply (R248). -/
structure SprPps where
  ppsPowerLimited : Bool
  maxVoltageMV : Nat
  minVoltageMV : Nat
  maxCurrentMA : Nat
  deriving DecidableEq, Repr

/-- EPR Adjustable Voltage Supply (R249). -/
structure EprAvs where
  peakCurrent : Nat
  maxVoltageMV : Nat
  minVoltageMV : Nat
  pdpMW : Nat
  deriving DecidableEq, Repr

/-- The Source PDO view (R243, R247). -/
inductive PdoView where
  | fixed (f : FixedSupply)
  | battery (b : BatterySupply)
  | variableSupply (v : VariableSupply)
  | sprPps (p : SprPps)
  | eprAvs (a : EprAvs)
  | reserved (raw : Word)
  deriving DecidableEq, Repr

/-- The step constants (R255): standard PDOs, then augmented PDOs. -/
def stdVoltageMV : Nat := 50
def stdCurrentMA : Nat := 10
def stdPowerMW : Nat := 250
def augVoltageMV : Nat := 100
def augCurrentMA : Nat := 50
def augPowerMW : Nat := 1000

/-- Fixed Supply's fields (R244). -/
def fixedSupply (p : Nat) : FixedSupply where
  dualRolePower := flagBit p 29
  usbSuspendSupported := flagBit p 28
  unconstrainedPower := flagBit p 27
  usbCommunicationsCapable := flagBit p 26
  dualRoleData := flagBit p 25
  unchunkedExtendedMessagesSupported := flagBit p 24
  eprModeCapable := flagBit p 23
  peakCurrent := extract p 21 20
  voltageMV := stdVoltageMV * extract p 19 10
  maxCurrentMA := stdCurrentMA * extract p 9 0

/-- Battery's fields (R245). -/
def batterySupply (p : Nat) : BatterySupply where
  maxVoltageMV := stdVoltageMV * extract p 29 20
  minVoltageMV := stdVoltageMV * extract p 19 10
  maxAllowablePowerMW := stdPowerMW * extract p 9 0

/-- Variable Supply's fields (R246). -/
def variableSupply (p : Nat) : VariableSupply where
  maxVoltageMV := stdVoltageMV * extract p 29 20
  minVoltageMV := stdVoltageMV * extract p 19 10
  maxCurrentMA := stdCurrentMA * extract p 9 0

/-- SPR PPS's fields (R248). -/
def sprPps (p : Nat) : SprPps where
  ppsPowerLimited := flagBit p 27
  maxVoltageMV := augVoltageMV * extract p 24 17
  minVoltageMV := augVoltageMV * extract p 15 8
  maxCurrentMA := augCurrentMA * extract p 6 0

/-- EPR AVS's fields (R249). -/
def eprAvs (p : Nat) : EprAvs where
  peakCurrent := extract p 27 26
  maxVoltageMV := augVoltageMV * extract p 25 17
  minVoltageMV := augVoltageMV * extract p 15 8
  pdpMW := augPowerMW * extract p 7 0

/-- Which variant a PDO's tag and subtype select (R243, R247). -/
inductive PdoTag where
  | fixed | battery | variableSupply | sprPps | eprAvs | reserved
  deriving DecidableEq, Repr

/-- The tag `p[31:30]`, and for an augmented PDO the subtype `p[29:28]` (R243, R247). -/
def pdoTag (p : Word) : PdoTag :=
  match extract p.toNat 31 30, extract p.toNat 29 28 with
  | 0, _ => .fixed
  | 1, _ => .battery
  | 2, _ => .variableSupply
  | _, 0 => .sprPps
  | _, 1 => .eprAvs
  | _, _ => .reserved

/-- The Source PDO view (R243). -/
def pdoView (p : Word) : PdoView :=
  match pdoTag p with
  | .fixed => .fixed (fixedSupply p.toNat)
  | .battery => .battery (batterySupply p.toNat)
  | .variableSupply => .variableSupply (variableSupply p.toNat)
  | .sprPps => .sprPps (sprPps p.toNat)
  | .eprAvs => .eprAvs (eprAvs p.toNat)
  | .reserved => .reserved p

/-! ### Request (R250 to R252) -/

/-- The RDO fields every variant has (R251). -/
structure RdoCommon where
  objectPosition : Nat
  capabilityMismatch : Bool
  usbCommunicationsCapable : Bool
  noUsbSuspend : Bool
  unchunkedExtendedMessagesSupported : Bool
  eprModeCapable : Bool
  deriving DecidableEq, Repr

/-- The RDO view, keyed by the PDO referenced (R250, R252). -/
inductive RdoView where
  | fixed (common : RdoCommon) (giveBack : Bool) (operatingMA maxOperatingMA : Nat)
  | variableSupply (common : RdoCommon) (giveBack : Bool) (operatingMA maxOperatingMA : Nat)
  | battery (common : RdoCommon) (giveBack : Bool) (operatingMW maxOperatingMW : Nat)
  | sprPps (common : RdoCommon) (outputMV operatingMA : Nat)
  | eprAvs (common : RdoCommon) (outputMV operatingMA : Nat)
  | reserved (raw : Word)
  | unresolved (common : RdoCommon) (raw : Word)
  deriving DecidableEq, Repr

/-- The common fields (R251). -/
def rdoCommon (r : Nat) : RdoCommon where
  objectPosition := extract r 31 28
  capabilityMismatch := flagBit r 26
  usbCommunicationsCapable := flagBit r 25
  noUsbSuspend := flagBit r 24
  unchunkedExtendedMessagesSupported := flagBit r 23
  eprModeCapable := flagBit r 22

/-- The view of a REQUEST_DO Frame (R250, R252): 20 mV and 25 mV are the output-voltage steps. -/
def rdoView (data1 data2 : Field) : RdoView :=
  let raw : Word := data1.truncate 32
  let r := raw.toNat
  if data2 = 0xFFFFFFFFFFFFFFFF#64 then .unresolved (rdoCommon r) raw
  else
    match pdoTag (data2.truncate 32) with
    | .fixed => .fixed (rdoCommon r) (flagBit r 27)
        (stdCurrentMA * extract r 19 10) (stdCurrentMA * extract r 9 0)
    | .variableSupply => .variableSupply (rdoCommon r) (flagBit r 27)
        (stdCurrentMA * extract r 19 10) (stdCurrentMA * extract r 9 0)
    | .battery => .battery (rdoCommon r) (flagBit r 27)
        (stdPowerMW * extract r 19 10) (stdPowerMW * extract r 9 0)
    | .sprPps => .sprPps (rdoCommon r) (20 * extract r 20 9) (augCurrentMA * extract r 6 0)
    | .eprAvs => .eprAvs (rdoCommon r) (25 * extract r 20 9) (augCurrentMA * extract r 6 0)
    | .reserved => .reserved raw

/-! ### VDM Header (R253, R254) -/

/-- The command type codes (R253). -/
inductive VdmCommandType where
  | req | ack | nak | busy
  deriving DecidableEq, Repr

/-- The commands R253 names; any other code is carried as it is. -/
inductive VdmCommand where
  | discoverIdentity | discoverSvids | discoverModes | enterMode | exitMode | attention
  | code (n : Nat)
  deriving DecidableEq, Repr

/-- The VDM Header view (R253). -/
inductive VdmView where
  | unstructured (svid vendorData : Nat)
  | structured (svid version versionMinor objectPosition : Nat) (commandType : VdmCommandType)
      (command : VdmCommand)
  deriving DecidableEq, Repr

/-- `v[7:6]` (R253). -/
def vdmCommandType (v : Nat) : VdmCommandType :=
  match extract v 7 6 with
  | 0 => .req
  | 1 => .ack
  | 2 => .nak
  | _ => .busy

/-- `v[4:0]` (R253). -/
def vdmCommand (v : Nat) : VdmCommand :=
  match extract v 4 0 with
  | 1 => .discoverIdentity
  | 2 => .discoverSvids
  | 3 => .discoverModes
  | 4 => .enterMode
  | 5 => .exitMode
  | 6 => .attention
  | n => .code n

/-- The view of a VDM_HEADER Frame (R253). -/
def vdmView (data1 : Field) : VdmView :=
  let v := data1.toNat % 2 ^ 32
  if flagBit v 15 then
    .structured (extract v 31 16) (extract v 14 13) (extract v 12 11) (extract v 10 8)
      (vdmCommandType v) (vdmCommand v)
  else .unstructured (extract v 31 16) (extract v 14 0)

/-- The header is a structured VDM's with Command = 1 (R253, R254; log 19). -/
def isDiscoverIdentity (data1 : Field) : Bool :=
  match vdmView data1 with
  | .structured _ _ _ _ _ .discoverIdentity => true
  | .structured _ _ _ _ _ _ => false
  | .unstructured _ _ => false

/-- The Discover Identity stub (R254): `NotDecoded(k)` with the open count `k` when the message has
fewer than 3 objects in total; nothing is said of any other message (R4). -/
def discoverIdentityStub (data1 : Field) (nObjects : Nat) : Option Nat :=
  if isDiscoverIdentity data1 && decide (nObjects < 3) then some Config.discoverIdRemaining else none

end Sys2Proof.Machine
end

