-- ==== Sys2Proof/Machine/Stimulus.lean ====
section
/-! DEFINITION. The stimulus notation: wire programs, their expansion to bits, and ideal edge synthesis
(30_encoding.md R102, R103). Not part of the step: it says what a host presents. -/

namespace Sys2Proof.Machine

/-- The K-code names of the notation (R83, R102). -/
inductive KName where
  | sync1 | sync2 | sync3 | rst1 | rst2 | eop
  deriving DecidableEq, Repr

/-- The symbol of a K-code name (R83). -/
def KName.symbol : KName → Sym
  | .sync1 => kSync1
  | .sync2 => kSync2
  | .sync3 => kSync3
  | .rst1 => kRst1
  | .rst2 => kRst2
  | .eop => kEop

/-- The items of a wire program (R102). -/
inductive WireItem where
  | pre64
  | pre63
  | k (name : KName)
  | sym (x : Sym)
  | d (n : Nibble)
  | b (x : Byte)
  | h (x : Header)
  | w (x : Word)
  | sopn (v : Fin 5)
  | crc
  | bits (l : List Bool)
  | gap (g : Nat)
  deriving DecidableEq, Repr

/-- What an item expands to: a BMC bit, or one edge without a bit (R102). -/
inductive WireElem where
  | bit (b : Bool)
  | gap (g : Nat)
  deriving DecidableEq, Repr

/-- A symbol's bits, bit 0 first (R65). -/
def symBits (x : Sym) : List Bool := (List.range 5).map x.getLsbD

/-- A byte's bits on the wire: low nibble first, each by its data symbol (R66, R82). -/
def byteBits (x : Byte) : List Bool :=
  symBits (enc4 (x.extractLsb' 0 4)) ++ symBits (enc4 (x.extractLsb' 4 4))

/-- The bits of a list of bytes, in order. -/
def bytesBits (l : List Byte) : List Bool := l.flatMap byteBits

/-- `n` alternating bits that start with `b` (R91). -/
def alternating : Nat → Bool → List Bool
  | 0, _ => []
  | n + 1, b => b :: alternating n (!b)

/-- The bits of an ordered set in its ideal spelling (R88). -/
def setBits (v : Fin 5) : List Bool := (sopPattern v).toList.flatMap symBits

/-- The expansion of a wire program; `cov` holds the bytes of the `H` and `W` items since the last
`SOPn`, over which `CRC` is computed (R102), with `CRC_POLY = poly` (P15). DESIGN CHOICE (log 25): a `CRC`
item with no `SOPn` before it covers the `H` and `W` items from the start of the program, of which R102
says nothing. -/
def expandFrom (poly : Word) (cov : List Byte) : List WireItem → List WireElem
  | [] => []
  | .pre64 :: r => (alternating 64 false).map .bit ++ expandFrom poly cov r
  | .pre63 :: r => (alternating 63 true).map .bit ++ expandFrom poly cov r
  | .k name :: r => (symBits name.symbol).map .bit ++ expandFrom poly cov r
  | .sym x :: r => (symBits x).map .bit ++ expandFrom poly cov r
  | .d n :: r => (symBits (enc4 n)).map .bit ++ expandFrom poly cov r
  | .b x :: r => (byteBits x).map .bit ++ expandFrom poly cov r
  | .h x :: r => (bytesBits (bytesLE 2 x)).map .bit ++ expandFrom poly (cov ++ bytesLE 2 x) r
  | .w x :: r => (bytesBits (bytesLE 4 x)).map .bit ++ expandFrom poly (cov ++ bytesLE 4 x) r
  | .sopn v :: r => (setBits v).map .bit ++ expandFrom poly [] r
  | .crc :: r => (bytesBits (bytesLE 4 (crcUpdate poly 0#32 cov))).map .bit ++ expandFrom poly cov r
  | .bits l :: r => l.map .bit ++ expandFrom poly cov r
  | .gap g :: r => .gap g :: expandFrom poly cov r

/-- The expansion of a whole wire program (R102): no item is covered at its start (log 25). -/
def expand (poly : Word) (p : List WireItem) : List WireElem := expandFrom poly [] p

/-- `MSG(hdr, w1..wN, SOPn)` (R102). -/
def msg (hdr : Header) (ws : List Word) (v : Fin 5) : List WireItem :=
  [.pre64, .sopn v, .h hdr] ++ ws.map .w ++ [.crc, .k .eop]

/-- The edges of the elements after an edge at `prev`, at half-bit period `h` (R103). -/
def synthFrom (h prev : Nat) : List WireElem → List Nat
  | [] => []
  | .bit false :: r => (prev + 2 * h) :: synthFrom h (prev + 2 * h) r
  | .bit true :: r => (prev + h) :: (prev + 2 * h) :: synthFrom h (prev + 2 * h) r
  | .gap g :: r => (prev + g) :: synthFrom h (prev + g) r

/-- The edge samples of a wire program that starts at `t0` (R103). -/
def synth (poly : Word) (h t0 : Nat) (p : List WireItem) : List Nat :=
  t0 :: synthFrom h t0 (expand poly p)

/-- The edges presented for a list of samples, the level alternating, `stop_req` as a function of the
sample (R103, R294). -/
def presentSamples (stop : Nat → Bool) : Bool → List Nat → List Edge
  | _, [] => []
  | lvl, t :: r => ⟨BitVec.ofNat 64 t, lvl, stop t⟩ :: presentSamples stop (!lvl) r

end Sys2Proof.Machine
end

