-- ==== Sys2Proof/Safety.lean ====
section
/-! DEFINITION. The terms claims use: runs, their start and their ends (70_reset_and_hazards.md R302,
60_exceptions.md R294), the invariants of 10_state.md R45, 20_memory.md R78 and 30_encoding.md R96 and
R97, the transition table of 44_packet_fsm.md R211. -/

namespace Sys2Proof.Machine

/-! ### States by what they do -/

/-- The states that receive symbols (R115). -/
def St.inPacket : St → Bool
  | .awaitSop => true
  | .awaitHeader => true
  | .readPayload => true
  | .awaitCrc => true
  | .awaitEop => true
  | .resetWait => false
  | .searchPreamble => false
  | .done => false
  | .halted => false
  | .faulted => false

/-- The states whose symbols are data (R153). -/
def St.inData : St → Bool
  | .awaitHeader => true
  | .readPayload => true
  | .awaitCrc => true
  | .awaitSop => false
  | .awaitEop => false
  | .resetWait => false
  | .searchPreamble => false
  | .done => false
  | .halted => false
  | .faulted => false

/-! ### Runs (R294) -/

/-- How a run has ended, if it has (R294). -/
inductive RunEnd where
  | completed | halted | faulted
  deriving DecidableEq, Repr

/-- The end of a run at a state (R294, R287). -/
def runEnd (s : State) : Option RunEnd :=
  match s.st with
  | .halted => some .halted
  | .faulted => some .faulted
  | .resetWait | .searchPreamble | .awaitSop | .awaitHeader | .readPayload | .awaitCrc | .awaitEop
  | .done => if s.input.isEmpty then some .completed else none

/-- The observation of a run (R294): its Frames, its events, its final state. -/
structure Observation where
  frames : List Frame
  trace : List EventRec
  final : State
  deriving DecidableEq, Repr

/-- The observation at a state (R294). -/
def observe (s : State) : Observation := ⟨s.frames, s.trace, s⟩

/-- At most `n` steps, stopping at the first fault or refusal. -/
def runSteps : Nat → State → Result
  | 0, s => .next s
  | n + 1, s => andThen (step s) (runSteps n)

/-- A session's start, with the edges `es` presented: the reset under the configuration `c`, which is
refused when `c` fails the check of R300(c) (R302, items 1 and 2). -/
def session (c : Cfg) (es : List Edge) : Result := takeReset c { State.reset with input := es }

/-- What else R302 asks of the host: the edges in non-decreasing sample order (item 3, R282), each sample
index in the width P16 gives (R5). `stop_req` (item 4) is the host's wish and no premise. -/
def launchable (c : Cfg) (es : List Edge) : Prop :=
  es.Pairwise (fun e f => e.t ≤ f.t) ∧ ∀ e ∈ es, e.t.toNat < 2 ^ c.sampleWidth

/-- The edges presented are in order, and none is below the cursor once the cursor has been positioned
(R282, R191). -/
def inputOrdered (s : State) : Prop :=
  s.input.Pairwise (fun e f => e.t ≤ f.t) ∧ (s.st ≠ .resetWait → ∀ e ∈ s.input, s.cur ≤ e.t)

/-! ### Invariants -/

/-- The control invariant: R45(a) to (g), less (a) in `FAULTED` (log 16), with the phase of the
preamble expectation (R132) and the bounds of the counters. -/
structure ControlInv (s : State) : Prop where
  /-- R31. -/
  symCnt_le : s.symCnt.toNat ≤ 4
  /-- R45(a), where R119 does not break it (log 16). -/
  symCnt_zero : s.st.inPacket = false → s.st ≠ .faulted → s.symCnt = 0#3
  /-- R45(b). -/
  bph_boundary : s.st = .resetWait ∨ s.st = .done → s.bph = .boundary
  /-- R45(c): below the run that ends the search, 62 at most where P5 is 63. (A run of 0, which R300(c)
  admits, is complete at any count of 0.) -/
  preCnt_lt : s.st = .searchPreamble → 0 < s.cfg.preambleRun → s.preCnt.toNat < s.cfg.preambleRun
  /-- The expectation starts at 1 and alternates (R131, R132). -/
  preExp_parity : s.st = .searchPreamble → s.preExp = decide (s.preCnt.toNat % 2 = 0)
  /-- R45(d); `READ_PAYLOAD` and `AWAIT_CRC` need no bound, the register has 3 bits. -/
  unitSym_le : s.st = .awaitSop ∨ s.st = .awaitHeader → s.unitSym.toNat ≤ 3
  /-- R45(e). -/
  remaining_pos : s.st = .readPayload → 1 ≤ s.remaining.toNat
  /-- R45(f). -/
  progress : s.st = .readPayload → s.objIndex.toNat + s.remaining.toNat = (ndo s.hdr).toNat
  /-- R39: the SOP type is a variant index. -/
  sopType_le : s.sopType.toNat ≤ 4

/-- The order R78 gives the starts of two Frames that follow one another: the first does not start later,
but for the Byte Frame of a unit's last byte, which precedes its unit's own Frame and ends with it. -/
def startsInOrder (c : Cfg) (f g : Frame) : Prop :=
  f.startSample.toNat ≤ g.startSample.toNat ∨
  (c.emitByteFrames = true ∧ f.type = .byte ∧ g.type ≠ .byte ∧ f.endSample = g.endSample)

/-- The samples in order: the registers that hold the start of the work in hand, the Frames emitted, and
the one against the other, so that no later Frame breaks the order of R78. -/
structure TimeInv (s : State) : Prop where
  /-- R130, R131. -/
  preStart_le : s.st = .searchPreamble → s.preStart.toNat ≤ s.cur.toNat
  /-- R24, R25. -/
  bitT0_le : s.bph = .mid → s.bitT0.toNat ≤ s.cur.toNat
  /-- R33. -/
  unitStart_le : s.st.inPacket = true → s.unitStart.toNat ≤ s.cur.toNat
  /-- R32. -/
  symStart_le : s.st.inPacket = true → s.symCnt ≠ 0#3 → s.symStart.toNat ≤ s.cur.toNat
  /-- R36: a byte half received. -/
  byteStart_le : s.st.inData = true → s.unitSym.getLsbD 0 = true → s.byteStart.toNat ≤ s.cur.toNat
  /-- Before the first edge nothing has been emitted (R300(d), R191). -/
  frames_empty : s.st = .resetWait → s.frames = []
  /-- R23: every Frame ends at or before the cursor. -/
  ends_le_cur : ∀ f ∈ s.frames, f.endSample.toNat ≤ s.cur.toNat
  /-- R96: `start ≤ end` in every Frame. -/
  start_le_end : ∀ f ∈ s.frames, f.startSample.toNat ≤ f.endSample.toNat
  /-- R78: the ends never decrease along the stream. -/
  ends_sorted : s.frames.Pairwise fun f g => f.endSample.toNat ≤ g.endSample.toNat
  /-- R78: the starts never decrease from one Frame to the next, but for Byte Frames. -/
  starts_sorted : s.frames.IsChain (startsInOrder s.cfg)
  /-- R155: Byte Frames with P14 only. -/
  byte_asked : ∀ f ∈ s.frames, f.type = .byte → s.cfg.emitByteFrames = true
  /-- Every Frame ends before the search in hand starts (R130, R131). -/
  ends_le_preStart : s.st = .searchPreamble → ∀ f ∈ s.frames, f.endSample.toNat ≤ s.preStart.toNat
  /-- Every Frame ends before the bit in hand starts (R24, R25). -/
  ends_le_bitT0 : s.bph = .mid → ∀ f ∈ s.frames, f.endSample.toNat ≤ s.bitT0.toNat
  /-- The unit in hand starts no later than the bit in hand (R33, R72). -/
  unitStart_le_bitT0 : s.bph = .mid → s.st.inPacket = true → s.unitStart.toNat ≤ s.bitT0.toNat
  /-- The unit in hand starts no later than the symbol in hand (R32, R33). -/
  unitStart_le_symStart : s.st.inPacket = true → s.symCnt ≠ 0#3 →
    s.unitStart.toNat ≤ s.symStart.toNat
  /-- Every Frame ends before the symbol in hand starts (R32). -/
  ends_le_symStart : s.st.inPacket = true → s.symCnt ≠ 0#3 →
    ∀ f ∈ s.frames, f.endSample.toNat ≤ s.symStart.toNat
  /-- The unit in hand starts no later than the byte in hand (R33, R36). -/
  unitStart_le_byteStart : s.st.inData = true → s.unitSym.getLsbD 0 = true →
    s.unitStart.toNat ≤ s.byteStart.toNat
  /-- Every Frame ends before the byte in hand starts (R36). -/
  ends_le_byteStart : s.st.inData = true → s.unitSym.getLsbD 0 = true →
    ∀ f ∈ s.frames, f.endSample.toNat ≤ s.byteStart.toNat
  /-- Every Frame ends before the unit in hand starts, but for the Byte Frames of that unit (R33). -/
  ends_le_unitStart : s.st.inPacket = true → ∀ f ∈ s.frames, f.endSample.toNat ≤ s.unitStart.toNat ∨
    (s.st.inData = true ∧ f.type = .byte ∧ s.unitStart.toNat ≤ f.startSample.toNat)

/-- The fields R97 gives each Frame type. -/
def Frame.wellFormed (c : Cfg) (f : Frame) : Bool :=
  match f.type with
  | .preamble => f.data1 == 1#64 && f.data2 == 0#64
  | .sop => decide (f.data1.toNat ≤ 4) && f.data2 == 0#64
  | .sopError => f.data1 == 0#64 && f.data2 == 0#64
  | .header => decide (f.data1.toNat < 2 ^ 16) && decide (f.data2.toNat ≤ 4)
  | .dataObject => decide (f.data1.toNat < 2 ^ 32) && f.data2 == 0#64
  | .sourcePdo => decide (f.data1.toNat < 2 ^ 32) && f.data2 == 0#64
  | .requestDo =>
    decide (f.data1.toNat < 2 ^ 32) && (decide (f.data2.toNat < 2 ^ 32) || f.data2 == refSentinel)
  | .vdmHeader => decide (f.data1.toNat < 2 ^ 32) && f.data2 == 0#64
  | .crc32 => decide (f.data1.toNat < 2 ^ 32) && decide (f.data2.toNat < 2 ^ 32)
  | .eop => (f.data1 == 1#64 || f.data1 == 0#64) && f.data2 == 0#64
  | .byte => c.emitByteFrames && decide (f.data1.toNat < 2 ^ 8) && f.data2 == 0#64

/-- Every Frame of the stream has the fields R97 gives its type; a Byte Frame only with P14 (R155). -/
structure FramesInv (s : State) : Prop where
  wellFormed : ∀ f ∈ s.frames, f.wellFormed s.cfg = true
  /-- R39: the SOP type the Header Frame carries is a variant index. -/
  sopType_le : s.sopType.toNat ≤ 4

/-- The number of bits a packet can still take before it ends or restarts: what is left of the unit in
hand and of the units after it, a Header not yet read counted as NDO = 7 (R100, R215). -/
def bitsLeft (s : State) : Nat :=
  match s.st with
  | .awaitSop => 5 * (4 - s.unitSym.toNat) - s.symCnt.toNat + (20 + 40 * 7 + 40 + 5)
  | .awaitHeader => 5 * (4 - s.unitSym.toNat) - s.symCnt.toNat + (40 * 7 + 40 + 5)
  | .readPayload =>
    5 * (8 - s.unitSym.toNat) - s.symCnt.toNat + (40 * (s.remaining.toNat - 1) + 40 + 5)
  | .awaitCrc => 5 * (8 - s.unitSym.toNat) - s.symCnt.toNat + 5
  | .awaitEop => 5 - s.symCnt.toNat
  | .resetWait | .searchPreamble | .done | .halted | .faulted => 0

/-! ### Rows of the opcode table -/

/-- The 32 symbols with their values (R82, R83, R84), written out from the spec's tables. -/
def symbolRows : List (Instr × Sym) :=
  [(.d0, 0x1E#5), (.d1, 0x09#5), (.d2, 0x14#5), (.d3, 0x15#5), (.d4, 0x0A#5), (.d5, 0x0B#5),
   (.d6, 0x0E#5), (.d7, 0x0F#5), (.d8, 0x12#5), (.d9, 0x13#5), (.dA, 0x16#5), (.dB, 0x17#5),
   (.dC, 0x1A#5), (.dD, 0x1B#5), (.dE, 0x1C#5), (.dF, 0x1D#5)] ++
  [(.sync1, 0x18#5), (.sync2, 0x11#5), (.sync3, 0x06#5), (.rst1, 0x07#5), (.rst2, 0x19#5),
   (.eop, 0x0D#5)] ++
  [(.inv00, 0x00#5), (.inv01, 0x01#5), (.inv02, 0x02#5), (.inv03, 0x03#5), (.inv04, 0x04#5),
   (.inv05, 0x05#5), (.inv08, 0x08#5), (.inv0C, 0x0C#5), (.inv10, 0x10#5), (.inv1F, 0x1F#5)]

/-- The five SOP variants with their indices (R88). -/
def variantRows : List (Instr × BitVec 3) :=
  [(.sop, 0#3), (.sopPrime, 1#3), (.sopDPrime, 2#3), (.sopPrimeDebug, 3#3), (.sopDPrimeDebug, 4#3)]

/-! ### What a step, a bit, a Header and an object leave, field by field -/

/-- No reset is asserted and `e` is the edge at the head of the input. -/
def edgeAt (s : State) (e : Edge) (rest : List Edge) : Prop :=
  s.resetReq = none ∧ s.input = e :: rest

/-- The step that consumes `e` completes the bit `b` over `[t0, e.t]` (R112, R113). -/
def closes (s : State) (e : Edge) (b : Bool) (t0 : Sample) : Prop :=
  (s.bph = .mid ∧ b = true ∧ t0 = s.bitT0) ∨
  (s.bph = .boundary ∧ oneWindow s.cfg (interval s.cur e.t) = false ∧ b = false ∧ t0 = s.cur)

/-- The step that consumes `e` flags a glitch (R114): only the first interval of a bit is looked at. -/
def glitches (s : State) (e : Edge) : Bool :=
  s.bph == .boundary && glitchFloor s.cfg (interval s.cur e.t)

/-- The state once `e` has been consumed and its bit recovered, before the bit is delivered. -/
def afterBit (s : State) (e : Edge) (rest : List Edge) (b : Bool) (t0 : Sample) : State :=
  { s with
    input := rest
    stopReq := e.stopReq
    ev := { Events.none with glitch := glitches s e }
    trace := s.trace ++ (if glitches s e then [⟨.glitch, e.t⟩] else [])
    cur := e.t
    bph := .boundary
    markers := s.markers ++ [⟨BitVec.ofNat 64 ((t0.toNat + e.t.toNat) / 2), b⟩] }

/-- The state in the search entered at `t` (R130). -/
def searching (t : Sample) (s : State) : State :=
  { s with
    st := if s.stopReq then .halted else .searchPreamble
    preCnt := 0#6
    preExp := true
    preStart := t }

/-- What R195 leaves for the Header `h`, with `count` as the list's length. -/
def afterHeader (h : Header) (count : BitVec 3) (s : State) : State :=
  { s with
    hdr := h
    crc := crcUpdate s.cfg.crcPoly s.crc [h.extractLsb' 0 8, h.extractLsb' 8 8]
    frames := s.frames ++ [⟨.header, h.zeroExtend 64, s.sopType.zeroExtend 64, s.unitStart, s.cur⟩]
    remaining := h.extractLsb' 12 3
    objIndex := 0#3
    unitStart := s.cur
    unitSym := 0#3
    acc := 0#32
    pdoCount := count
    st := if h.extractLsb' 12 3 = 0#3 then .awaitCrc else .readPayload }

/-- What R197 leaves for the object in the accumulator, whose class emits the Frames `fs`. -/
def afterObject (fs : List Frame) (s : State) : State :=
  { s with
    crc := crcUpdate s.cfg.crcPoly s.crc
      [s.acc.extractLsb' 0 8, s.acc.extractLsb' 8 8, s.acc.extractLsb' 16 8, s.acc.extractLsb' 24 8]
    frames := s.frames ++ fs
    objIndex := s.objIndex + 1#3
    remaining := s.remaining - 1#3
    unitStart := s.cur
    unitSym := 0#3
    acc := 0#32
    st := if s.remaining - 1#3 = 0#3 then .awaitCrc else .readPayload }

/-- The Frame of the object in the accumulator. -/
def objectFrame (type : FrameType) (data2 : Field) (s : State) : Frame :=
  ⟨type, s.acc.zeroExtend 64, data2, s.unitStart, s.cur⟩

/-! ### Symbols in sequence -/

/-- A symbol with the range of its bits. -/
structure TimedSym where
  x : Sym
  ts : Sample
  te : Sample
  deriving DecidableEq, Repr

/-- A whole symbol received: assembled over `[ts, te]`, then run (R150). -/
def feedSymbol (y : TimedSym) (s : State) : Result :=
  runSymbol { s with symSr := y.x, symCnt := 0#3, symStart := y.ts, cur := y.te }

/-- Symbols received one after another. -/
def feedSymbols : List TimedSym → State → Result
  | [], s => .next s
  | y :: r, s => andThen (feedSymbol y s) (feedSymbols r)

/-- The two data symbols of a byte, low nibble first (R66). -/
def byteSymbols (x : Byte) : List Sym := [enc4 (x.extractLsb' 0 4), enc4 (x.extractLsb' 4 4)]

/-- The bytes the CRC of a packet covers (R173). -/
def coveredBytes (h : Header) (ws : List Word) : List Byte :=
  bytesLE 2 h ++ ws.flatMap fun w => bytesLE 4 w

/-- The symbols of a packet after its preamble (R90), with its CRC under the polynomial `poly` and its
EOP right. -/
def packetSymbols (poly : Word) (v : Fin 5) (h : Header) (ws : List Word) : List Sym :=
  (sopPattern v).toList ++ (coveredBytes h ws).flatMap byteSymbols ++
    (bytesLE 4 (crcUpdate poly 0#32 (coveredBytes h ws))).flatMap byteSymbols ++ [0x0D#5]

/-- A Frame without its range. -/
def Frame.content (f : Frame) : FrameType × Field × Field := (f.type, f.data1, f.data2)

/-- The content of the Frame of object `k` of a message, by its class (R198 to R202). -/
def objectContent (s : State) (h : Header) (w : Word) (k : Nat) : FrameType × Field × Field :=
  match kind s.cfg h with
  | .control => (.dataObject, w.zeroExtend 64, 0#64)
  | .srcCap => (.sourcePdo, w.zeroExtend 64, 0#64)
  | .request =>
    if k = 0 then
      (.requestDo, w.zeroExtend 64,
        ((pdoAt (objPos s.cfg w) s).map fun p => p.zeroExtend 64).getD refSentinel)
    else (.dataObject, w.zeroExtend 64, 0#64)
  | .vdm =>
    if k = 0 then (.vdmHeader, w.zeroExtend 64, 0#64) else (.dataObject, w.zeroExtend 64, 0#64)
  | .other => (.dataObject, w.zeroExtend 64, 0#64)

/-! ### The transition relation (R211) -/

/-- The Frames a step has appended, for a step whose state before is `s`. -/
def newFrames (s t : State) : List Frame := t.frames.drop s.frames.length

/-- The types of the unit Frames among `l`: every Frame but the Byte Frames. -/
def unitTypes (l : List Frame) : List FrameType :=
  (l.map Frame.type).filter fun y => y != .byte

/-- The level of one event output (R43). -/
def Events.level (e : Events) : EventKind → Bool
  | .glitch => e.glitch
  | .symInvalid => e.symInvalid
  | .sopError => e.sopError
  | .eopError => e.eopError
  | .crcMismatch => e.crcMismatch
  | .refError => e.refError
  | .inputFault => e.inputFault

/-- "bit": the edge `e` at or after the cursor recovers a bit, and does not only open a one (R112,
R113). -/
def recoversBit (s : State) (e : Edge) : Bool :=
  s.bph == .mid || !oneWindow s.cfg (interval s.cur e.t)

/-- The value of the bit recovered: a one from the mid phase, else a zero (R112, R113). -/
def bitValue (s : State) : Bool := s.bph == .mid

/-- "run = 63": the bit recovered completes the run of `PREAMBLE_RUN` (R131). -/
def completesRun (s : State) : Bool :=
  (if bitValue s = s.preExp then (s.preCnt + 1#6).toNat else 0) == s.cfg.preambleRun

/-- "symbol": the bit recovered is the fifth of its symbol (R150). -/
def completesSymbol (s : State) (e : Edge) : Bool := recoversBit s e && s.symCnt == 4#3

/-- "unit": the symbol completed is the last of its unit (R135, R154). -/
def completesUnit (s : State) (e : Edge) : Bool := completesSymbol s e && lastOfUnit s

/-- The symbol the bit recovered completes (R65). -/
def completedSymbol (s : State) : Sym := setSymBit s.symSr 4 (bitValue s)

/-- "[BYTE]": with `EMIT_BYTE_FRAMES`, at a byte's second symbol (R155). -/
def byteType (s : State) (e : Edge) : List FrameType :=
  if s.cfg.emitByteFrames && completesSymbol s e && s.st.inData && s.unitSym.getLsbD 0 then [.byte]
  else []

/-- The "object Frame" of the object in hand, by the class of its message (R197 to R202). A control
message has no objects. -/
def objectType (s : State) : FrameType :=
  match kind s.cfg s.hdr with
  | .control => .dataObject
  | .srcCap => .sourcePdo
  | .request => if s.objIndex = 0#3 then .requestDo else .dataObject
  | .vdm => if s.objIndex = 0#3 then .vdmHeader else .dataObject
  | .other => .dataObject

/-- What a row of R211 gives a step: its Frames in order, the events it signals, the events that are
possible beside them, and the next state. -/
structure Row where
  types : List FrameType
  signalled : List EventKind
  possible : List EventKind
  next : St

/-- The rows of R211 for an edge at or after the cursor, in a state that takes it. `ndoZero` says that the
Header received has no objects, `crcDiffers` that the trailer received is not the computed value. -/
def forwardRow (s : State) (e : Edge) (ndoZero crcDiffers : Bool) : Row :=
  let search : St := if e.stopReq then .halted else .searchPreamble
  let inUnit : List EventKind := if s.st.inData then [.glitch, .symInvalid] else [.glitch]
  let same : Row := ⟨byteType s e, [], inUnit, s.st⟩
  match s.st with
  | .resetWait => ⟨[], [], [], search⟩
  | .halted => ⟨[], [], [], .halted⟩
  | .faulted => ⟨[], [], [], .faulted⟩
  | .done => ⟨[], [], [], search⟩
  | .searchPreamble =>
    if !recoversBit s e then ⟨[], [], [.glitch], .searchPreamble⟩
    else if completesRun s then ⟨[.preamble], [], [.glitch], .awaitSop⟩
    else ⟨[], [], [.glitch], search⟩
  | .awaitSop =>
    if !completesUnit s e then same
    else if (sopClassify s.cfg (s.sopRx.set 3 (completedSymbol s))).isSome then
      ⟨[.sop], [], [.glitch], .awaitHeader⟩
    else ⟨[.sopError], [.sopError], [.glitch], search⟩
  | .awaitHeader =>
    if !completesUnit s e then same
    else ⟨byteType s e ++ [.header], [], inUnit, if ndoZero then .awaitCrc else .readPayload⟩
  | .readPayload =>
    if !completesUnit s e then same
    else ⟨byteType s e ++ [objectType s], [],
      if objectType s = .requestDo then .refError :: inUnit else inUnit,
      if s.remaining = 1#3 then .awaitCrc else .readPayload⟩
  | .awaitCrc =>
    if !completesUnit s e then same
    else ⟨byteType s e ++ [.crc32], if crcDiffers then [.crcMismatch] else [], inUnit, .awaitEop⟩
  | .awaitEop =>
    if !completesSymbol s e then same
    else if completedSymbol s = 0x0D#5 then ⟨[.eop], [], [.glitch], .done⟩
    else ⟨[.eop], [.eopError], [.glitch], search⟩

/-- The row of R211 for the edge `e` at the head of the input and no reset: the rows of an edge below the
cursor and of the quiescent states, then the others. -/
def transitionRow (s : State) (e : Edge) (ndoZero crcDiffers : Bool) : Row :=
  if e.t < s.cur ∧ s.st ≠ .resetWait ∧ s.st ≠ .halted ∧ s.st ≠ .faulted then
    ⟨[], [.inputFault], [], .faulted⟩
  else forwardRow s e ndoZero crcDiffers

end Sys2Proof.Machine
end

