-- ==== Sys2Proof/Certificates/Slice0/Obligations.lean ====
section
/-! DEFINITION. The statements for the provers. Each docstring names the rules of spec/ it formalises;
where a clause is the model's own choice the docstring names the log entry. -/

open Sys2Proof Sys2Proof.Machine

/-! ### Encodings -/

/-- R82, R83, R84, R88, R92, R196: the decoder reads every well-formed instruction back from its code
word, with every Header, under every configuration whose threshold (P6, 3 in R5) tells the five ordered
sets apart: two of them agree in at most 2 of 4 places. -/
def Obligations.DecodeOfEncodeIsTheInstruction : Prop :=
  ∀ (c : Cfg) (i : Instr), 3 ≤ c.sopMatchThreshold → c.sopMatchThreshold ≤ 4 → i.wf c = true →
    decode c (encode i) = .ok i

/-- R81, R87, R195, R196: what the decoder answers is well formed; a symbol and a Header are encoded back
to the very word; an ordered set is answered by the first variant with at least the threshold's number of
symbols equal (P6, 3 in R5). -/
def Obligations.DecodedInstructionEncodesItsWord : Prop :=
  ∀ (c : Cfg) (w : Code) (i : Instr), decode c w = .ok i →
    i.wf c = true ∧
    match w with
    | .sym5 x => encode i = .sym5 x
    | .hdr16 h => encode i = .hdr16 h
    | .ordset20 os =>
      ∃ v : Fin 5, i = variantInstr v ∧ encode i = .ordset20 (packSet (sopPattern v)) ∧
        c.sopMatchThreshold ≤ sopScore v (unpackSet os) ∧
        ∀ u : Fin 5, u < v → sopScore u (unpackSet os) < c.sopMatchThreshold

/-- R136: the first variant in table order with at least the threshold's number of equal positions (P6, 3
in R5), else none; the table is R88's, in the values of R83. -/
def Obligations.SopClassifyIsFirstVariantAtThreshold : Prop :=
  ∀ (c : Cfg) (rx : Vector Sym 4),
    (∀ v : Fin 5, sopClassify c rx = some v ↔
      c.sopMatchThreshold ≤
        ((List.finRange 4).filter fun k => rx[k] == (sopPattern v)[k]).length ∧
      ∀ u : Fin 5, u < v →
        ((List.finRange 4).filter fun k => rx[k] == (sopPattern u)[k]).length < c.sopMatchThreshold) ∧
    (sopClassify c rx = none ↔ ∀ v : Fin 5,
      ((List.finRange 4).filter fun k => rx[k] == (sopPattern v)[k]).length < c.sopMatchThreshold) ∧
    (List.finRange 5).map sopPattern =
      [#v[0x18#5, 0x18#5, 0x18#5, 0x11#5], #v[0x18#5, 0x18#5, 0x06#5, 0x06#5],
       #v[0x18#5, 0x06#5, 0x18#5, 0x06#5], #v[0x18#5, 0x19#5, 0x19#5, 0x06#5],
       #v[0x18#5, 0x19#5, 0x06#5, 0x11#5]]

/-- R136(a), (c): with a threshold of at most 3 (P6, 3 in R5) one wrong symbol never makes an ordered set
fail, and gives the intended variant or a lower one; the SOP variant itself is always given. -/
def Obligations.OneWrongSopSymbolIsTolerated : Prop :=
  ∀ (c : Cfg) (v : Fin 5) (k : Fin 4) (x : Sym), c.sopMatchThreshold ≤ 3 →
    ∃ u : Fin 5, u ≤ v ∧ sopClassify c ((sopPattern v).set k x) = some u

/-- R156: the 4b5b round trip, with the 16 symbols of R82 in their values; every other symbol gives the
sentinel. -/
def Obligations.FourBitFiveBitRoundTrip : Prop :=
  ∀ c : Cfg, (∀ n : Nibble, dec5 c (enc4 n) = n.zeroExtend 8) ∧
    (∀ x : Sym, (∃ n : Nibble, x = enc4 n ∧ dec5 c x = n.zeroExtend 8) ∨
      ((∀ n : Nibble, x ≠ enc4 n) ∧ dec5 c x = c.invalidNibble)) ∧
    (dec5 c 0x1E#5 = 0x0#8 ∧ dec5 c 0x09#5 = 0x1#8 ∧ dec5 c 0x14#5 = 0x2#8 ∧ dec5 c 0x15#5 = 0x3#8 ∧
     dec5 c 0x0A#5 = 0x4#8 ∧ dec5 c 0x0B#5 = 0x5#8 ∧ dec5 c 0x0E#5 = 0x6#8 ∧ dec5 c 0x0F#5 = 0x7#8 ∧
     dec5 c 0x12#5 = 0x8#8 ∧ dec5 c 0x13#5 = 0x9#8 ∧ dec5 c 0x16#5 = 0xA#8 ∧ dec5 c 0x17#5 = 0xB#8 ∧
     dec5 c 0x1A#5 = 0xC#8 ∧ dec5 c 0x1B#5 = 0xD#8 ∧ dec5 c 0x1C#5 = 0xE#8 ∧ dec5 c 0x1D#5 = 0xF#8)

/-- R196: the class of a Header, and so its instruction. -/
def Obligations.HeaderIsDecodedByItsClass : Prop :=
  ∀ (c : Cfg) (h : Header),
    let n := h.toNat / 2 ^ 12 % 2 ^ 3
    let m := h.toNat % 2 ^ c.msgTypeWidth
    (n = 0 → decodeHdr c h = .control h) ∧
    (n ≠ 0 → m = c.mtSourceCap → decodeHdr c h = .sourceCapabilities h) ∧
    (n ≠ 0 → m ≠ c.mtSourceCap → m = c.mtRequest → decodeHdr c h = .request h) ∧
    (n ≠ 0 → m ≠ c.mtSourceCap → m ≠ c.mtRequest → m = c.mtVendor →
      decodeHdr c h = .vendorDefined h) ∧
    (n ≠ 0 → m ≠ c.mtSourceCap → m ≠ c.mtRequest → m ≠ c.mtVendor → decodeHdr c h = .otherData h)

/-- R82, R83, R84, R88, R196: a few words written out from the spec's encodings. Which format a table word
is read in is the model's choice (log 13): the packet state tells it in the spec, and here a word of 16 bits
that is a symbol of eight edges or more is read as that symbol (D0 and EOP below), any other as a Header. -/
def Obligations.WrittenWordsDecode : Prop :=
  decodeTableWord 16 0b11110 = some .d0 ∧ decodeTableWord 8 0b01001 = some .d1 ∧
  decodeTableWord 8 0b11000 = some .sync1 ∧ decodeTableWord 16 0b01101 = some .eop ∧
  decodeTableWord 8 0b00000 = some .inv00 ∧
  decodeTableWord 24 0x8E318 = some .sop ∧ decodeTableWord 24 0x89B38 = some .sopDPrimeDebug ∧
  decodeTableWord 16 0x01A5 = some (.control 0x01A5#16) ∧
  decodeTableWord 16 0x13A1 = some (.sourceCapabilities 0x13A1#16) ∧
  decodeTableWord 16 0x1082 = some (.request 0x1082#16) ∧
  decodeTableWord 16 0x218F = some (.vendorDefined 0x218F#16) ∧
  decodeTableWord 16 0x1043 = some (.otherData 0x1043#16)

/-! ### CRC -/

/-- R172: the chaining law. -/
def Obligations.CrcChains : Prop :=
  ∀ (p s : Word) (a b : List Byte), crcUpdate p (crcUpdate p s a) b = crcUpdate p s (a ++ b)

/-- R170(a), R176(a): the empty list changes nothing, and the engine is linear up to the complements,
whatever its polynomial (P15). -/
def Obligations.CrcIsAffine : Prop :=
  ∀ (p s : Word) (l : List (Byte × Byte × Byte)),
    crcUpdate p s [] = s ∧
    crcUpdate p s (l.map fun x => x.1) ^^^ crcUpdate p s (l.map fun x => x.2.1) ^^^
        crcUpdate p s (l.map fun x => x.2.2) =
      crcUpdate p s (l.map fun x => x.1 ^^^ x.2.1 ^^^ x.2.2)

/-- R176(b): an error confined to one byte, a single-bit error in particular, changes the value, under the
polynomial of R171 and every other with bit 0 set. -/
def Obligations.CrcSeesEverySingleByteError : Prop :=
  ∀ (p s : Word) (pre post : List Byte) (x y : Byte), p.getLsbD 0 = true → x ≠ y →
    crcUpdate p s (pre ++ x :: post) ≠ crcUpdate p s (pre ++ y :: post)

/-- R171, R175: the bit reversal of 0x04C11DB7 is 0xEDB88320, the reversal maps bit `31 - i` to bit `i`,
and with that polynomial the check value of the ASCII bytes 1 to 9 is 0xCBF43926. -/
def Obligations.CrcEngineConstants : Prop :=
  bitReverse32 0x04C11DB7#32 = 0xEDB88320#32 ∧
  (∀ (p : Word) (i : Nat), i < 32 → (bitReverse32 p).getLsbD i = p.getLsbD (31 - i)) ∧
  crcUpdate 0x04C11DB7#32 0#32
      [0x31#8, 0x32#8, 0x33#8, 0x34#8, 0x35#8, 0x36#8, 0x37#8, 0x38#8, 0x39#8] = 0xCBF43926#32

/-! ### Intervals -/

/-- R111, R114: under the spec's window and threshold, the two interval predicates in exact integer
arithmetic. -/
def Obligations.IntervalPredicatesAreTheSpecs : Prop :=
  ∀ (c : Cfg) (d : Nat), c.window = windowSpec → c.glitch = glitchSpec →
    (oneWindow c d = true ↔
      3 * c.sampleRate ≤ 8 * c.bitRate * d ∧ 8 * c.bitRate * d ≤ 5 * c.sampleRate) ∧
    (glitchFloor c d = true ↔ 4 * c.bitRate * d < c.sampleRate)

/-! ### Symbols by position (R150): the 32 symbol instructions -/

/-- R135: in `AWAIT_SOP` a symbol is stored raw and counted. That nothing else changes is R135's for the
first three symbols; for the fourth it is the model's split of a symbol from the unit it completes (log 8):
the classification R135 goes on to is the step's (StepRunsTheDecodedSymbol,
OrderedSetRunsItsVariantOrRestarts). -/
def Obligations.SymbolInSopPositionIsStored : Prop :=
  ∀ p ∈ symbolRows, ∀ (s : State) (k : Fin 4), s.st = .awaitSop → s.unitSym.toNat = k →
    exec p.1 s = .next { s with sopRx := s.sopRx.set k p.2, unitSym := s.unitSym + 1#3 }

/-- R151, R153, R154, R155: in a data position a symbol is decoded; the first of a byte is kept with its
start; the second completes the byte, ORed into the accumulator at its place, with a Byte Frame when
asked. `EV_SYM_INVALID` is signalled when the decoded value is the sentinel. At the last symbol of a unit
two things are the model's: that every other field is unchanged, since the unit's work (header_done,
object_done, crc_done) is split off to the step (log 8), and that unit_sym goes from 7 to 0, where R153 has
8 until that work clears it (log 21). -/
def Obligations.SymbolInDataPositionIsAssembled : Prop :=
  ∀ p ∈ symbolRows, ∀ s : State, s.st = .awaitHeader ∨ s.st = .readPayload ∨ s.st = .awaitCrc →
    let n := dec5 s.cfg p.2
    let bad := n == s.cfg.invalidNibble
    let x := s.nibLo ||| (n <<< 4)
    let s1 : State := { s with
      unitSym := s.unitSym + 1#3
      ev := { s.ev with symInvalid := s.ev.symInvalid || bad }
      trace := s.trace ++ (if bad then [⟨.symInvalid, s.cur⟩] else []) }
    (s.unitSym.toNat % 2 = 0 → exec p.1 s = .next { s1 with nibLo := n, byteStart := s.symStart }) ∧
    (s.unitSym.toNat % 2 = 1 → exec p.1 s = .next { s1 with
      acc := s.acc ||| (x.zeroExtend 32 <<< (8 * (s.unitSym.toNat / 2)))
      frames := s.frames ++
        (if s.cfg.emitByteFrames then [⟨.byte, x.zeroExtend 64, 0#64, s.byteStart, s.cur⟩] else []) })

/-- R206, R139, R209, R130: in `AWAIT_EOP` the symbol gives the EOP Frame; the EOP K-code leads to
`DONE`, any other symbol signals `EV_EOP_ERROR` and restarts the search. -/
def Obligations.SymbolInEopPositionEndsThePacket : Prop :=
  ∀ p ∈ symbolRows, ∀ s : State, s.st = .awaitEop →
    (p.2 = 0x0D#5 → exec p.1 s = .next { s with
      st := .done, frames := s.frames ++ [⟨.eop, 1#64, 0#64, s.symStart, s.cur⟩] }) ∧
    (p.2 ≠ 0x0D#5 → exec p.1 s = .next (searching s.cur { s with
      frames := s.frames ++ [⟨.eop, 0#64, 0#64, s.symStart, s.cur⟩]
      ev := { s.ev with eopError := true }
      trace := s.trace ++ [⟨.eopError, s.cur⟩] }))

/-- Log 9 (the model's choice; R115 says no other state receives bits): elsewhere a symbol instruction
writes nothing. -/
def Obligations.SymbolOutsideAPacketWritesNothing : Prop :=
  ∀ p ∈ symbolRows, ∀ s : State, s.st.inPacket = false → exec p.1 s = .next s

/-- R65: the first of five bits is bit 0 of the symbol, whatever the register held before. -/
def Obligations.SymbolIsAssembledLsbFirst : Prop :=
  ∀ (x : Sym) (s : State) (t0 t1 t2 t3 t4 : Sample), s.symCnt = 0#3 →
    let u := shiftBit (x.getLsbD 4) t4 (shiftBit (x.getLsbD 3) t3 (shiftBit (x.getLsbD 2) t2
      (shiftBit (x.getLsbD 1) t1 (shiftBit (x.getLsbD 0) t0 s))))
    u.symSr = x ∧ u.symCnt = 5#3 ∧ u.symStart = t0

/-- R66, R67, R68: the data symbols of a value's bytes, low nibble and low byte first, assemble the value
in the accumulator: two bytes for a Header, four for a Data Object or the CRC trailer. The symbols are fed
to `exec` without the work of the units they complete, which is the step's: the model's split (log 8). That
unit_sym is 0 after the eighth, with the value still in the accumulator, is the model's wrap of the counter
(log 21). -/
def Obligations.DataSymbolsAssembleLittleEndian : Prop :=
  ∀ (v : Word) (s : State), s.st.inData = true →
    s.unitSym = 0#3 → s.acc = 0#32 →
    let put := fun (r : Result) (x : Sym) => andThen r (exec (decodeSym x))
    (∃ t, ((bytesLE 2 v).flatMap byteSymbols).foldl put (.next s) = .next t ∧
      t.acc = v &&& 0xFFFF#32 ∧ t.unitSym = 4#3) ∧
    (∃ t, ((bytesLE 4 v).flatMap byteSymbols).foldl put (.next s) = .next t ∧
      t.acc = v ∧ t.unitSym = 0#3 ∧ t.st = s.st)

/-! ### Ordered sets -/

/-- R137, R194: an accepted variant gives its SOP Frame, is kept as the SOP type, and opens the Header
with the CRC cleared. -/
def Obligations.SopVariantOpensTheHeader : Prop :=
  ∀ p ∈ variantRows, ∀ s : State,
    exec p.1 s = .next { s with
      frames := s.frames ++ [⟨.sop, p.2.zeroExtend 64, 0#64, s.unitStart, s.cur⟩]
      sopType := p.2
      st := .awaitHeader
      crc := 0#32
      unitStart := s.cur
      unitSym := 0#3
      acc := 0#32 }

/-- R136, R137, R138: the completed ordered set runs the first variant at the threshold (P6, 3 in R5); a
set that reaches none gives the SOP_ERROR Frame, `EV_SOP_ERROR` and the restart. -/
def Obligations.OrderedSetRunsItsVariantOrRestarts : Prop :=
  ∀ s : State, s.st = .awaitSop →
    (∀ v : Fin 5, s.cfg.sopMatchThreshold ≤ sopScore v s.sopRx →
      (∀ u : Fin 5, u < v → sopScore u s.sopRx < s.cfg.sopMatchThreshold) →
      runUnit s = exec (variantInstr v) s) ∧
    ((∀ v : Fin 5, sopScore v s.sopRx < s.cfg.sopMatchThreshold) →
      runUnit s = .next (searching s.cur { s with
        frames := s.frames ++ [⟨.sopError, 0#64, 0#64, s.unitStart, s.cur⟩]
        ev := { s.ev with sopError := true }
        trace := s.trace ++ [⟨.sopError, s.cur⟩] }))

/-! ### Header classes -/

/-- R195: the Header completes: stored, covered by the CRC, reported, counted; a Source Capabilities
Header with objects clears the list; then the payload, or the CRC when there is none. Stated for every
class, with every Header of the class. -/
def Obligations.HeaderCompletes : Prop :=
  ∀ (h : Header) (s : State), s.st = .awaitHeader →
    (kind s.cfg h = .control → exec (.control h) s = .next (afterHeader h s.pdoCount s)) ∧
    (kind s.cfg h = .srcCap → exec (.sourceCapabilities h) s = .next (afterHeader h 0#3 s)) ∧
    (kind s.cfg h = .request → exec (.request h) s = .next (afterHeader h s.pdoCount s)) ∧
    (kind s.cfg h = .vdm → exec (.vendorDefined h) s = .next (afterHeader h s.pdoCount s)) ∧
    (kind s.cfg h = .other → exec (.otherData h) s = .next (afterHeader h s.pdoCount s))

/-- R198, R197: a Source Capabilities object is reported, stored at its index, and becomes the last of
the list; no other entry changes. Log 26 (the model's choice): at an index that a list depth (P13)
configured below 7 does not have, nothing is stored. -/
def Obligations.SourcePdoIsStored : Prop :=
  ∀ (h : Header) (s : State) (k : Fin 7), s.st = .readPayload → s.objIndex.toNat = k →
    exec (.sourceCapabilities h) s = .next { afterObject [objectFrame .sourcePdo 0#64 s] s with
      pdoList := if k < s.cfg.pdoListDepth then s.pdoList.set k s.acc else s.pdoList
      pdoCount := s.objIndex + 1#3 }

/-- R199, R200, R197: the first object of a Request carries the list entry its object position names,
or the sentinel with `EV_REF_ERROR`; a later object is generic. Log 26 (the model's choice): an entry
within the list's length that a list depth (P13) configured below 7 does not have reads as a free value,
whatever it is. -/
def Obligations.RequestIsResolved : Prop :=
  ∀ (h : Header) (s : State), s.st = .readPayload →
    let pos := s.acc.toNat / 2 ^ s.cfg.objPosLsb % 2 ^ s.cfg.objPosWidth
    (∀ k : Fin 7, s.objIndex = 0#3 → pos = k + 1 → pos ≤ s.pdoCount.toNat →
      pos ≤ s.cfg.pdoListDepth →
      exec (.request h) s = .next
        (afterObject [objectFrame .requestDo (s.pdoList[k].zeroExtend 64) s] s)) ∧
    (s.objIndex = 0#3 → 1 ≤ pos → pos ≤ s.pdoCount.toNat → s.cfg.pdoListDepth < pos →
      exec (.request h) s = .next
        (afterObject [objectFrame .requestDo ((Config.absentEntry (pos - 1)).zeroExtend 64) s] s)) ∧
    (s.objIndex = 0#3 → pos = 0 ∨ s.pdoCount.toNat < pos →
      exec (.request h) s = .next
        { afterObject [objectFrame .requestDo 0xFFFFFFFFFFFFFFFF#64 s] s with
          ev := { s.ev with refError := true }
          trace := s.trace ++ [⟨.refError, s.cur⟩] }) ∧
    (s.objIndex ≠ 0#3 →
      exec (.request h) s = .next (afterObject [objectFrame .dataObject 0#64 s] s))

/-- R201, R197: the first object of a Vendor Defined message is its VDM Header, the rest are generic. -/
def Obligations.VdmObjectIsReported : Prop :=
  ∀ (h : Header) (s : State), s.st = .readPayload →
    (s.objIndex = 0#3 →
      exec (.vendorDefined h) s = .next (afterObject [objectFrame .vdmHeader 0#64 s] s)) ∧
    (s.objIndex ≠ 0#3 →
      exec (.vendorDefined h) s = .next (afterObject [objectFrame .dataObject 0#64 s] s))

/-- R202, R197: every object of another message is generic. Log 17 (the model's choice, for a state no
run reaches): a control class in `READ_PAYLOAD` reports nothing and counts the object. -/
def Obligations.OtherObjectIsReported : Prop :=
  ∀ (h : Header) (s : State), s.st = .readPayload →
    exec (.otherData h) s = .next (afterObject [objectFrame .dataObject 0#64 s] s) ∧
    exec (.control h) s = .next (afterObject [] s)

/-- R205, R174: the completed trailer is reported beside the computed CRC, a difference signals
`EV_CRC_MISMATCH`, and the EOP is awaited either way. -/
def Obligations.CrcTrailerIsCompared : Prop :=
  ∀ s : State, s.st = .awaitCrc →
    runUnit s = .next { s with
      frames := s.frames ++
        [⟨.crc32, s.acc.zeroExtend 64, s.crc.zeroExtend 64, s.unitStart, s.cur⟩]
      ev := { s.ev with crcMismatch := s.ev.crcMismatch || (s.acc != s.crc) }
      trace := s.trace ++ (if s.acc = s.crc then [] else [⟨.crcMismatch, s.cur⟩])
      st := .awaitEop
      unitStart := s.cur
      unitSym := 0#3
      acc := 0#32 }

/-! ### The step -/

/-- R110, R112, R113, R115, R150: the step that completes the fifth bit of a symbol is `exec` of the
decoded symbol on the state with the bit placed, followed by the unit when the symbol is its last. -/
def Obligations.StepRunsTheDecodedSymbol : Prop :=
  ∀ (s : State) (e : Edge) (rest : List Edge) (b : Bool) (t0 : Sample),
    edgeAt s e rest → s.st.inPacket = true → s.cur ≤ e.t → s.symCnt = 4#3 → closes s e b t0 →
    let x := setSymBit s.symSr 4 b
    let s1 : State := { afterBit s e rest b t0 with symSr := x, symCnt := 0#3 }
    step s = andThen (exec (decodeSym x) s1)
      fun u => if lastOfUnit s1 then runUnit u else .next u

/-- R195, R196, R197: the completed Header, and each completed object, runs `exec` of the class the
Header decodes to. -/
def Obligations.UnitRunsTheDecodedHeader : Prop :=
  ∀ s : State,
    (s.st = .awaitHeader → decode s.cfg (.hdr16 (s.acc.truncate 16)) =
        .ok (decodeHdr s.cfg (s.acc.truncate 16)) ∧
      runUnit s = exec (decodeHdr s.cfg (s.acc.truncate 16)) s) ∧
    (s.st = .readPayload → decode s.cfg (.hdr16 s.hdr) = .ok (decodeHdr s.cfg s.hdr) ∧
      runUnit s = exec (decodeHdr s.cfg s.hdr) s)

/-- R150, R115: a bit that does not complete a symbol is placed and counted, and opens the symbol when
it is its first. -/
def Obligations.StepPlacesASymbolBit : Prop :=
  ∀ (s : State) (e : Edge) (rest : List Edge) (b : Bool) (t0 : Sample),
    edgeAt s e rest → s.st.inPacket = true → s.cur ≤ e.t → s.symCnt.toNat < 4 → closes s e b t0 →
    step s = .next { afterBit s e rest b t0 with
      symSr := setSymBit (if s.symCnt = 0#3 then 0#5 else s.symSr) s.symCnt.toNat b
      symStart := if s.symCnt = 0#3 then t0 else s.symStart
      symCnt := s.symCnt + 1#3 }

/-- R112, R114: an edge inside the window after a boundary is a mid-bit transition; no bit is completed. -/
def Obligations.StepTakesAMidBitEdge : Prop :=
  ∀ (s : State) (e : Edge) (rest : List Edge),
    edgeAt s e rest → s.st = .searchPreamble ∨ s.st.inPacket = true → s.cur ≤ e.t →
    s.bph = .boundary → oneWindow s.cfg (interval s.cur e.t) = true →
    step s = .next { s with
      input := rest
      stopReq := e.stopReq
      ev := { Events.none with glitch := glitches s e }
      trace := s.trace ++ (if glitches s e then [⟨.glitch, e.t⟩] else [])
      bitT0 := s.cur
      cur := e.t
      bph := .mid }

/-- R131, R132, R133, R193: one recovered bit of the preamble search: it is counted or restarts the count;
the last of a run of `PREAMBLE_RUN` (P5, 63 in R5) gives the Preamble Frame and opens the SOP; after any
other `stop_req` halts. -/
def Obligations.StepSearchesThePreamble : Prop :=
  ∀ (s : State) (e : Edge) (rest : List Edge) (b : Bool) (t0 : Sample),
    edgeAt s e rest → s.st = .searchPreamble → s.cur ≤ e.t → closes s e b t0 →
    let a := afterBit s e rest b t0
    let after : St := if e.stopReq then .halted else .searchPreamble
    let count := if b = s.preExp then s.preCnt + 1#6 else 0#6
    let expected := if b = s.preExp then !s.preExp else true
    let start := if b = s.preExp then s.preStart else e.t
    (count.toNat = s.cfg.preambleRun → step s = .next { a with
      preCnt := count, preExp := expected, preStart := start
      frames := s.frames ++ [⟨.preamble, 1#64, 0#64, start, e.t⟩]
      st := .awaitSop, symCnt := 0#3, unitStart := e.t, unitSym := 0#3, acc := 0#32 }) ∧
    (count.toNat ≠ s.cfg.preambleRun → step s = .next { a with
      preCnt := count, preExp := expected, preStart := start, st := after })

/-- R121, R111, R116: under the spec's window, a first interval within `E ≤ Hp/4` of half a bit period is read
as a one and one within `E` of a whole period as a zero; the bit is recovered over its range, in the
search and in a packet. `err` is `E` in units of `1 / (2 * BIT_RATE)` of a sample, in which `Hp` is
`SAMPLE_RATE`. -/
def Obligations.BitsNearIdealAreRecovered : Prop :=
  ∀ (s : State) (err : Nat), ControlInv s → s.resetReq = none → s.bph = .boundary →
    s.st = .searchPreamble ∨ s.st.inPacket = true → s.cfg.admitted = true →
    s.cfg.window = windowSpec → 4 * err ≤ s.cfg.sampleRate →
    (∀ (e1 e2 : Edge) (rest : List Edge), s.input = e1 :: e2 :: rest → s.cur ≤ e1.t → e1.t ≤ e2.t →
      let d := e1.t.toNat - s.cur.toNat
      2 * s.cfg.bitRate * d ≤ s.cfg.sampleRate + err →
      s.cfg.sampleRate ≤ 2 * s.cfg.bitRate * d + err →
      ∃ t, runSteps 2 s = .next t ∧ t.cur = e2.t ∧ t.bph = .boundary ∧ t.input = rest ∧
        t.markers = s.markers ++ [⟨BitVec.ofNat 64 ((s.cur.toNat + e2.t.toNat) / 2), true⟩]) ∧
    (∀ (e : Edge) (rest : List Edge), s.input = e :: rest → s.cur ≤ e.t →
      let d := e.t.toNat - s.cur.toNat
      2 * s.cfg.bitRate * d ≤ 2 * s.cfg.sampleRate + err →
      2 * s.cfg.sampleRate ≤ 2 * s.cfg.bitRate * d + err →
      ∃ t, runSteps 1 s = .next t ∧ t.cur = e.t ∧ t.bph = .boundary ∧ t.input = rest ∧
        t.markers = s.markers ++ [⟨BitVec.ofNat 64 ((s.cur.toNat + e.t.toNat) / 2), false⟩])

/-- R131, R132: from an empty count, the alternating bits 1, 0, 1, … are counted without leaving the
search while they are fewer than `PREAMBLE_RUN` (P5, 63 in R5), and the last of that run opens the SOP with
the Preamble Frame (bits delivered at one cursor; a run that fits the 6-bit counter of R26). -/
def Obligations.AlternatingRunCompletesThePreamble : Prop :=
  ∀ s : State, s.st = .searchPreamble → s.preCnt = 0#6 → s.preExp = true → s.stopReq = false →
    0 < s.cfg.preambleRun → s.cfg.preambleRun ≤ 63 →
    (∀ n : Nat, n < s.cfg.preambleRun →
      (alternating n true).foldl (fun u b => preambleBit b u) s =
        { s with preCnt := BitVec.ofNat 6 n, preExp := decide (n % 2 = 0) }) ∧
    (alternating s.cfg.preambleRun true).foldl (fun u b => preambleBit b u) s =
      { s with
        preCnt := BitVec.ofNat 6 s.cfg.preambleRun, preExp := decide (s.cfg.preambleRun % 2 = 0)
        frames := s.frames ++ [⟨.preamble, 1#64, 0#64, s.preStart, s.cur⟩]
        st := .awaitSop, symCnt := 0#3, unitStart := s.cur, unitSym := 0#3, acc := 0#32 }

/-- R191, R130: the first edge after reset only positions the cursor. -/
def Obligations.StepPositionsTheCursor : Prop :=
  ∀ (s : State) (e : Edge) (rest : List Edge), edgeAt s e rest → s.st = .resetWait →
    step s = .next { s with
      input := rest
      stopReq := e.stopReq
      ev := Events.none
      cur := e.t
      bph := .boundary
      preCnt := 0#6
      preExp := true
      preStart := e.t
      st := if e.stopReq then .halted else .searchPreamble }

/-- R207, R130: the one edge taken in `DONE` is skipped whatever its distance. -/
def Obligations.StepSkipsTheTrailingEdge : Prop :=
  ∀ (s : State) (e : Edge) (rest : List Edge), edgeAt s e rest → s.st = .done → s.cur ≤ e.t →
    step s = .next { s with
      input := rest
      stopReq := e.stopReq
      ev := Events.none
      cur := e.t
      preCnt := 0#6
      preExp := true
      preStart := e.t
      st := if e.stopReq then .halted else .searchPreamble }

/-- R119, R276, R279(a), (c): an edge that goes backwards faults the block; its event is alone, and no
register but `S.st` is written. -/
def Obligations.StepFaultsOnABackwardEdge : Prop :=
  ∀ (s : State) (e : Edge) (rest : List Edge), edgeAt s e rest → e.t < s.cur →
    s.st ≠ .resetWait → s.st ≠ .halted → s.st ≠ .faulted →
    step s = .next { s with
      input := rest
      stopReq := e.stopReq
      ev := { Events.none with inputFault := true }
      trace := s.trace ++ [⟨.inputFault, e.t⟩]
      st := .faulted }

/-- R287, R276, R293: with no edge, in `HALTED` and in `FAULTED` the block has no step. Log 1 (the model's
choice): there the model's `step` answers a next state, with everything as it was; of the event outputs,
which R43 does not store, this says nothing. -/
def Obligations.HoldChangesNothing : Prop :=
  ∀ s : State, s.resetReq = none → s.input = [] ∨ s.st = .halted ∨ s.st = .faulted →
    ∃ t, step s = .next t ∧ { t with ev := s.ev } = s

/-- R300, R44, R286: an asserted reset with a configuration that passes the check of R300(c) gives every
register its reset value, latches the configuration, consumes no edge and starts empty output streams, in
any state; one that fails it is refused. -/
def Obligations.ResetReinitialises : Prop :=
  ∀ (s : State) (c : Cfg), s.resetReq = some c →
    let ok := 0 < c.bitRate ∧ 4 * c.bitRate ≤ c.sampleRate ∧
      (c.msgTypeWidth = 4 ∨ c.msgTypeWidth = 5) ∧ c.mtSourceCap < 2 ^ c.msgTypeWidth ∧
      c.mtRequest < 2 ^ c.msgTypeWidth ∧ c.mtVendor < 2 ^ c.msgTypeWidth ∧
      c.objPosLsb + c.objPosWidth ≤ 32
    (ok →
      step s = .next {
        st := .resetWait, cur := 0#64, bph := .boundary, bitT0 := 0#64
        preCnt := 0#6, preExp := true, preStart := 0#64
        sopRx := #v[0#5, 0#5, 0#5, 0#5]
        symSr := 0#5, symCnt := 0#3, symStart := 0#64
        unitStart := 0#64, unitSym := 0#3, nibLo := 0#8, byteStart := 0#64, acc := 0#32
        hdr := 0#16, sopType := 0#3
        pdoList := #v[0#32, 0#32, 0#32, 0#32, 0#32, 0#32, 0#32], pdoCount := 0#3
        remaining := 0#3, objIndex := 0#3, crc := 0#32
        cfg := c, ev := Events.none
        stopReq := s.stopReq, resetReq := none, input := s.input
        frames := [], markers := [], trace := [] }) ∧
    (¬ ok → step s = .refused .configuration)

/-! ### The whole machine -/

/-- R45(a) to (g), R31, R39, R132 (log 16 for (a) in `FAULTED`): every step keeps the control
invariant. R45(c)'s 62 is one below `PREAMBLE_RUN` (P5, 63 in R5). -/
def Obligations.StepKeepsControlInvariant : Prop :=
  ∀ s t : State, ControlInv s → step s = .next t → ControlInv t

/-- R44, R45, R300(c), (d), R302: the control, sample and Frame invariants hold after reset, and at the
start of every session; a session under a configuration that fails the check of R300(c) is refused. -/
def Obligations.ResetHasTheInvariants : Prop :=
  (ControlInv State.reset ∧ TimeInv State.reset ∧ FramesInv State.reset) ∧
  ∀ (c : Cfg) (es : List Edge),
    (c.admitted = true → ∃ s, session c es = .next s ∧ s.cfg = c ∧ s.input = es ∧ s.st = .resetWait ∧
      ControlInv s ∧ TimeInv s ∧ FramesInv s) ∧
    (c.admitted = false → session c es = .refused .configuration)

/-- R23, R78, R96: every step keeps the order of samples: every Frame runs from a start to an end no
earlier, no end after the cursor; along the stream the ends never decrease, and the starts never decrease
from one Frame to the next but where a unit's last Byte Frame precedes the unit's own Frame. -/
def Obligations.StepKeepsTimeInvariant : Prop :=
  ∀ s t : State, TimeInv s → step s = .next t → TimeInv t

/-- R97, R155: every step keeps every Frame to the fields of its type. -/
def Obligations.StepKeepsFramesWellFormed : Prop :=
  ∀ s t : State, FramesInv s → step s = .next t → FramesInv t

/-- R98, R157, R310 (log 11): no reachable step stops: under the control invariant a step answers a next
state, unless a reset asks for an inadmissible configuration. -/
def Obligations.StepNeverStopsInARun : Prop :=
  ∀ s : State, ControlInv s → (∀ c, s.resetReq = some c → c.admitted = true) →
    ∃ t, step s = .next t

/-- R211: the transition relation, row by row: in a step that meets an edge, the row that the state, the
edge and the Header received choose gives the next state, the Frames in order with the Byte Frame, the
events that are signalled and the events that are possible beside them. A trailer that differs is told from
the CRC32 Frame emitted. A reset leads to `RESET_WAIT` with no Frame and no event. -/
def Obligations.StepFollowsTheTransitionTable : Prop :=
  (∀ (s t : State) (e : Edge) (rest : List Edge), ControlInv s → edgeAt s e rest → step s = .next t →
    let l := newFrames s t
    let row := transitionRow s e (decide (t.hdr.extractLsb' 12 3 = 0#3))
      (l.any fun f => f.type == .crc32 && f.data1 != f.data2)
    t.st = row.next ∧ t.frames = s.frames ++ l ∧ l.map Frame.type = row.types ∧
    ∀ k : EventKind, (k ∈ row.signalled → t.ev.level k = true) ∧
      (t.ev.level k = true → k ∈ row.signalled ∨ k ∈ row.possible)) ∧
  ∀ s t : State, s.resetReq ≠ none → step s = .next t →
    t.st = .resetWait ∧ t.frames = [] ∧ t.ev = Events.none

/-- R61, R210, R155, R310: the Frame stream only grows, by at most two Frames a step; two only with Byte
Frames on, the Byte Frame first; the marker stream grows by at most one. -/
def Obligations.StepAppendsAtMostTwoFrames : Prop :=
  ∀ s t : State, s.resetReq = none → step s = .next t →
    ∃ (l : List Frame) (m : List Marker), t.frames = s.frames ++ l ∧ t.markers = s.markers ++ m ∧
      m.length ≤ 1 ∧ l.length ≤ 2 ∧
      ∀ f g : Frame, l = [f, g] → s.cfg.emitByteFrames = true ∧ f.type = .byte ∧ g.type ≠ .byte

/-- R23: the cursor never decreases after the positioning edge. -/
def Obligations.CursorNeverDecreases : Prop :=
  ∀ s t : State, s.resetReq = none → s.st ≠ .resetWait → step s = .next t → s.cur ≤ t.cur

/-- R42, R303: only a reset writes the configuration registers. -/
def Obligations.ConfigurationIsReadOnly : Prop :=
  ∀ s t : State, s.resetReq = none → step s = .next t → t.cfg = s.cfg

/-- R40, R203, R273: without a reset, the remembered list and its length change only when a Source
Capabilities Header completes or an object of such a message does; so SOP, CRC and EOP failures, `DONE`
and restarts leave them. -/
def Obligations.ListIsWrittenBySourceCapabilitiesOnly : Prop :=
  ∀ s t : State, s.resetReq = none → step s = .next t →
    t.pdoList ≠ s.pdoList ∨ t.pdoCount ≠ s.pdoCount →
    (s.st = .awaitHeader ∧ t.st = .readPayload ∧ kind s.cfg t.hdr = .srcCap ∧
      t.pdoList = s.pdoList ∧ t.pdoCount = 0#3) ∨
    (s.st = .readPayload ∧ kind s.cfg s.hdr = .srcCap ∧ t.pdoCount = s.objIndex + 1#3 ∧
      ∀ k : Fin 7, s.objIndex.toNat ≠ k → t.pdoList[k] = s.pdoList[k])

/-- R276, R119: `FAULTED` is entered only by an edge that goes backwards. R302, R282: so a session launched
with its edges in order has them in order at its start, every step keeps them so, and none enters
`FAULTED`. -/
def Obligations.FaultedOnlyByABackwardEdge : Prop :=
  (∀ s t : State, s.st ≠ .faulted → step s = .next t → t.st = .faulted →
    ∃ (e : Edge) (rest : List Edge), edgeAt s e rest ∧ e.t < s.cur ∧ s.st ≠ .resetWait) ∧
  (∀ (c : Cfg) (es : List Edge) (s : State), launchable c es → session c es = .next s →
    inputOrdered s ∧ s.st ≠ .faulted) ∧
  ∀ s t : State, inputOrdered s → s.st ≠ .faulted → step s = .next t →
    inputOrdered t ∧ t.st ≠ .faulted

/-- R214, R285, R133: the block halts only in a step that consumes an edge with `stop_req` asserted, at an
entry into the search or after a bit of it that does not complete the run: the step appends a marker and no
Frame; a packet in progress ends first: from a packet state only with the Frame of an SOP failure or of an
EOP failure. -/
def Obligations.HaltsOnlyAtACancellationPoint : Prop :=
  ∀ s t : State, s.st ≠ .halted → step s = .next t → t.st = .halted →
    ∃ (e : Edge) (rest : List Edge), edgeAt s e rest ∧ e.stopReq = true ∧
      (s.st = .resetWait ∨ s.st = .done ∨
       (s.st = .searchPreamble ∧ newFrames s t = [] ∧ ∃ m, t.markers = s.markers ++ [m]) ∨
       (s.st = .awaitSop ∧ unitTypes (newFrames s t) = [.sopError]) ∨
       (s.st = .awaitEop ∧ ∃ f, newFrames s t = [f] ∧ f.type = .eop ∧ f.data1 = 0#64))

/-- R214: between the SOP and the EOP the level of `stop_req` changes nothing: two states that differ in
it take steps that differ in it only. -/
def Obligations.StopRequestIsIgnoredInsideAPacket : Prop :=
  ∀ (s : State) (e : Edge) (rest : List Edge) (b : Bool), edgeAt s e rest → s.st.inData = true →
    step { s with input := { e with stopReq := b } :: rest } =
      andThen (step s) fun t => .next { t with stopReq := b }

/-- R117: the level of an edge is never read. -/
def Obligations.EdgeLevelIsNeverRead : Prop :=
  ∀ (s : State) (e : Edge) (rest : List Edge) (b : Bool), edgeAt s e rest →
    s.st ≠ .halted → s.st ≠ .faulted →
    step { s with input := { e with lvl := b } :: rest } = step s

/-- R304, R309: what follows a reset depends on the configuration latched and the inputs only: two
states, however different, give the same state after it. -/
def Obligations.ResetForgetsTheSession : Prop :=
  ∀ s s' : State, s.resetReq ≠ none → s'.resetReq = s.resetReq → s'.input = s.input →
    s'.stopReq = s.stopReq → step s' = step s

/-- R270, R271, R273, R274: the events of a step without reset are those its Frames report: SOP failure,
EOP failure, CRC mismatch, unresolved reference. -/
def Obligations.EventsMatchTheFrames : Prop :=
  ∀ s t : State, s.resetReq = none → step s = .next t →
    (t.ev.sopError = true ↔ ∃ f ∈ newFrames s t, f.type = .sopError) ∧
    (t.ev.eopError = true ↔ ∃ f ∈ newFrames s t, f.type = .eop ∧ f.data1 = 0#64) ∧
    (t.ev.crcMismatch = true ↔ ∃ f ∈ newFrames s t, f.type = .crc32 ∧ f.data1 ≠ f.data2) ∧
    (t.ev.refError = true ↔ ∃ f ∈ newFrames s t, f.type = .requestDo ∧ f.data2 = refSentinel)

/-- R279(b), (c), (d): which events can coincide in a step without reset. -/
def Obligations.EventsThatCanCoincide : Prop :=
  ∀ s t : State, s.resetReq = none → step s = .next t →
    (t.ev.inputFault = true → t.ev = { Events.none with inputFault := true }) ∧
    (t.ev.sopError = true → t.ev = { Events.none with sopError := true, glitch := t.ev.glitch }) ∧
    (t.ev.eopError = true → t.ev = { Events.none with eopError := true, glitch := t.ev.glitch }) ∧
    ¬ (t.ev.crcMismatch = true ∧ t.ev.refError = true)

/-- R215, R100: a packet in progress leaves the packet states within two edges for each bit it can still
take, at most 730 edges after the preamble (a Header not yet read counted as 7 objects). -/
def Obligations.PacketEndsWithinItsBound : Prop :=
  ∀ s : State, ControlInv s → s.st.inPacket = true → s.resetReq = none →
    2 * bitsLeft s ≤ s.input.length →
    2 * bitsLeft s ≤ 730 ∧
    ∃ (n : Nat) (t : State), n ≤ 2 * bitsLeft s ∧ runSteps n s = .next t ∧ t.st.inPacket = false

/-- R212, R90, R173: the symbols of a well-formed packet, whatever their ranges, give exactly its SOP,
HEADER, object, CRC32 (both values equal) and EOP Frames and reach `DONE`; no event but `EV_REF_ERROR` is
signalled. Byte Frames (P14) are off, the sentinel (P7) is the spec's 0xFF, and the threshold (P6, 3 in R5)
tells the ordered sets apart. -/
def Obligations.WellFormedPacketIsDecoded : Prop :=
  ∀ (s : State) (v : Fin 5) (h : Header) (ws : List Word) (ys : List TimedSym),
    s.st = .awaitSop → s.unitSym = 0#3 → s.acc = 0#32 →
    s.cfg.invalidNibble = 0xFF#8 → s.cfg.emitByteFrames = false →
    3 ≤ s.cfg.sopMatchThreshold → s.cfg.sopMatchThreshold ≤ 4 →
    ws.length = (ndo h).toNat → ys.map TimedSym.x = packetSymbols s.cfg.crcPoly v h ws →
    ∃ t, feedSymbols ys s = .next t ∧ t.st = .done ∧
      t.frames.map Frame.content = s.frames.map Frame.content ++
        [(.sop, BitVec.ofNat 64 v, 0#64), (.header, h.zeroExtend 64, BitVec.ofNat 64 v)] ++
        (ws.zipIdx.map fun p => objectContent s h p.1 p.2) ++
        [(.crc32, (crcUpdate s.cfg.crcPoly 0#32 (coveredBytes h ws)).zeroExtend 64,
            (crcUpdate s.cfg.crcPoly 0#32 (coveredBytes h ws)).zeroExtend 64),
         (.eop, 1#64, 0#64)] ∧
      { t.ev with refError := s.ev.refError } = s.ev

/-! ### Consumer views -/

/-- R243, R244, R247, R255: the view of a Source PDO: the tag selects the variant; a Fixed Supply's
voltage and current are 50 mV and 10 mA times their fields. -/
def Obligations.PdoViewFollowsItsTag : Prop :=
  ∀ p : Word,
    let tag := p.toNat / 2 ^ 30
    let sub := p.toNat / 2 ^ 28 % 4
    (tag = 0 → ∃ f, pdoView p = .fixed f ∧ f.voltageMV = 50 * (p.toNat / 2 ^ 10 % 2 ^ 10) ∧
      f.maxCurrentMA = 10 * (p.toNat % 2 ^ 10)) ∧
    (tag = 1 → ∃ b, pdoView p = .battery b) ∧
    (tag = 2 → ∃ v, pdoView p = .variableSupply v) ∧
    (tag = 3 → sub = 0 → ∃ q, pdoView p = .sprPps q) ∧
    (tag = 3 → sub = 1 → ∃ a, pdoView p = .eprAvs a) ∧
    (tag = 3 → 2 ≤ sub → pdoView p = .reserved p)

/-- R250: a Request whose reference is invalid is viewed as unresolved with its common fields; one whose
reference is a reserved PDO is reserved. -/
def Obligations.UnresolvedRequestIsViewedRaw : Prop :=
  ∀ r : Word,
    rdoView (r.zeroExtend 64) 0xFFFFFFFFFFFFFFFF#64 = .unresolved (rdoCommon r.toNat) r ∧
    (rdoCommon r.toNat).objectPosition = r.toNat / 2 ^ 28 ∧
    ∀ p : Word, pdoView p = .reserved p →
      rdoView (r.zeroExtend 64) (p.zeroExtend 64) = .reserved r

/-- R253, R254: the Discover Identity stub reports exactly for a structured VDM Header (bit 15 set) whose
Command (bits 4:0) is 1, in a message of fewer than 3 objects, and the open count it reports is positive,
whatever its value. That an unstructured header gets no report is the model's choice (log 19). -/
def Obligations.DiscoverIdentityStubCountIsPositive : Prop :=
  ∀ (d : Field) (n : Nat),
    let v := d.toNat % 2 ^ 32
    let identity := v / 2 ^ 15 % 2 = 1 ∧ v % 2 ^ 5 = 1
    (isDiscoverIdentity d = true ↔ identity) ∧
    (∀ k, discoverIdentityStub d n = some k → identity ∧ n < 3 ∧ 0 < k) ∧
    (identity → n < 3 → ∃ k, discoverIdentityStub d n = some k)
end

