-- ==== Sys2Proof/Laws/State.lean ====
section
/-! SUPPORT. One lemma per field per update of the state, so that no later proof unfolds a record
update. -/

namespace Sys2Proof.Machine

/-! ### emit -/

@[simp] theorem emit_st (y : FrameType) (a b : Field) (u v : Sample) (s : State) : (emit y a b u v s).st = s.st := rfl
@[simp] theorem emit_cur (y : FrameType) (a b : Field) (u v : Sample) (s : State) : (emit y a b u v s).cur = s.cur := rfl
@[simp] theorem emit_bph (y : FrameType) (a b : Field) (u v : Sample) (s : State) : (emit y a b u v s).bph = s.bph := rfl
@[simp] theorem emit_bitT0 (y : FrameType) (a b : Field) (u v : Sample) (s : State) : (emit y a b u v s).bitT0 = s.bitT0 := rfl
@[simp] theorem emit_preCnt (y : FrameType) (a b : Field) (u v : Sample) (s : State) : (emit y a b u v s).preCnt = s.preCnt := rfl
@[simp] theorem emit_preExp (y : FrameType) (a b : Field) (u v : Sample) (s : State) : (emit y a b u v s).preExp = s.preExp := rfl
@[simp] theorem emit_preStart (y : FrameType) (a b : Field) (u v : Sample) (s : State) : (emit y a b u v s).preStart = s.preStart := rfl
@[simp] theorem emit_sopRx (y : FrameType) (a b : Field) (u v : Sample) (s : State) : (emit y a b u v s).sopRx = s.sopRx := rfl
@[simp] theorem emit_symSr (y : FrameType) (a b : Field) (u v : Sample) (s : State) : (emit y a b u v s).symSr = s.symSr := rfl
@[simp] theorem emit_symCnt (y : FrameType) (a b : Field) (u v : Sample) (s : State) : (emit y a b u v s).symCnt = s.symCnt := rfl
@[simp] theorem emit_symStart (y : FrameType) (a b : Field) (u v : Sample) (s : State) : (emit y a b u v s).symStart = s.symStart := rfl
@[simp] theorem emit_unitStart (y : FrameType) (a b : Field) (u v : Sample) (s : State) : (emit y a b u v s).unitStart = s.unitStart := rfl
@[simp] theorem emit_unitSym (y : FrameType) (a b : Field) (u v : Sample) (s : State) : (emit y a b u v s).unitSym = s.unitSym := rfl
@[simp] theorem emit_nibLo (y : FrameType) (a b : Field) (u v : Sample) (s : State) : (emit y a b u v s).nibLo = s.nibLo := rfl
@[simp] theorem emit_byteStart (y : FrameType) (a b : Field) (u v : Sample) (s : State) : (emit y a b u v s).byteStart = s.byteStart := rfl
@[simp] theorem emit_acc (y : FrameType) (a b : Field) (u v : Sample) (s : State) : (emit y a b u v s).acc = s.acc := rfl
@[simp] theorem emit_hdr (y : FrameType) (a b : Field) (u v : Sample) (s : State) : (emit y a b u v s).hdr = s.hdr := rfl
@[simp] theorem emit_sopType (y : FrameType) (a b : Field) (u v : Sample) (s : State) : (emit y a b u v s).sopType = s.sopType := rfl
@[simp] theorem emit_pdoList (y : FrameType) (a b : Field) (u v : Sample) (s : State) : (emit y a b u v s).pdoList = s.pdoList := rfl
@[simp] theorem emit_pdoCount (y : FrameType) (a b : Field) (u v : Sample) (s : State) : (emit y a b u v s).pdoCount = s.pdoCount := rfl
@[simp] theorem emit_remaining (y : FrameType) (a b : Field) (u v : Sample) (s : State) : (emit y a b u v s).remaining = s.remaining := rfl
@[simp] theorem emit_objIndex (y : FrameType) (a b : Field) (u v : Sample) (s : State) : (emit y a b u v s).objIndex = s.objIndex := rfl
@[simp] theorem emit_crc (y : FrameType) (a b : Field) (u v : Sample) (s : State) : (emit y a b u v s).crc = s.crc := rfl
@[simp] theorem emit_cfg (y : FrameType) (a b : Field) (u v : Sample) (s : State) : (emit y a b u v s).cfg = s.cfg := rfl
@[simp] theorem emit_ev (y : FrameType) (a b : Field) (u v : Sample) (s : State) : (emit y a b u v s).ev = s.ev := rfl
@[simp] theorem emit_stopReq (y : FrameType) (a b : Field) (u v : Sample) (s : State) : (emit y a b u v s).stopReq = s.stopReq := rfl
@[simp] theorem emit_resetReq (y : FrameType) (a b : Field) (u v : Sample) (s : State) : (emit y a b u v s).resetReq = s.resetReq := rfl
@[simp] theorem emit_input (y : FrameType) (a b : Field) (u v : Sample) (s : State) : (emit y a b u v s).input = s.input := rfl
@[simp] theorem emit_frames (y : FrameType) (a b : Field) (u v : Sample) (s : State) : (emit y a b u v s).frames = s.frames ++ [⟨y, a, b, u, v⟩] := rfl
@[simp] theorem emit_markers (y : FrameType) (a b : Field) (u v : Sample) (s : State) : (emit y a b u v s).markers = s.markers := rfl
@[simp] theorem emit_trace (y : FrameType) (a b : Field) (u v : Sample) (s : State) : (emit y a b u v s).trace = s.trace := rfl

/-! ### mark -/

@[simp] theorem mark_st (u v : Sample) (b : Bool) (s : State) : (mark u v b s).st = s.st := rfl
@[simp] theorem mark_cur (u v : Sample) (b : Bool) (s : State) : (mark u v b s).cur = s.cur := rfl
@[simp] theorem mark_bph (u v : Sample) (b : Bool) (s : State) : (mark u v b s).bph = s.bph := rfl
@[simp] theorem mark_bitT0 (u v : Sample) (b : Bool) (s : State) : (mark u v b s).bitT0 = s.bitT0 := rfl
@[simp] theorem mark_preCnt (u v : Sample) (b : Bool) (s : State) : (mark u v b s).preCnt = s.preCnt := rfl
@[simp] theorem mark_preExp (u v : Sample) (b : Bool) (s : State) : (mark u v b s).preExp = s.preExp := rfl
@[simp] theorem mark_preStart (u v : Sample) (b : Bool) (s : State) : (mark u v b s).preStart = s.preStart := rfl
@[simp] theorem mark_sopRx (u v : Sample) (b : Bool) (s : State) : (mark u v b s).sopRx = s.sopRx := rfl
@[simp] theorem mark_symSr (u v : Sample) (b : Bool) (s : State) : (mark u v b s).symSr = s.symSr := rfl
@[simp] theorem mark_symCnt (u v : Sample) (b : Bool) (s : State) : (mark u v b s).symCnt = s.symCnt := rfl
@[simp] theorem mark_symStart (u v : Sample) (b : Bool) (s : State) : (mark u v b s).symStart = s.symStart := rfl
@[simp] theorem mark_unitStart (u v : Sample) (b : Bool) (s : State) : (mark u v b s).unitStart = s.unitStart := rfl
@[simp] theorem mark_unitSym (u v : Sample) (b : Bool) (s : State) : (mark u v b s).unitSym = s.unitSym := rfl
@[simp] theorem mark_nibLo (u v : Sample) (b : Bool) (s : State) : (mark u v b s).nibLo = s.nibLo := rfl
@[simp] theorem mark_byteStart (u v : Sample) (b : Bool) (s : State) : (mark u v b s).byteStart = s.byteStart := rfl
@[simp] theorem mark_acc (u v : Sample) (b : Bool) (s : State) : (mark u v b s).acc = s.acc := rfl
@[simp] theorem mark_hdr (u v : Sample) (b : Bool) (s : State) : (mark u v b s).hdr = s.hdr := rfl
@[simp] theorem mark_sopType (u v : Sample) (b : Bool) (s : State) : (mark u v b s).sopType = s.sopType := rfl
@[simp] theorem mark_pdoList (u v : Sample) (b : Bool) (s : State) : (mark u v b s).pdoList = s.pdoList := rfl
@[simp] theorem mark_pdoCount (u v : Sample) (b : Bool) (s : State) : (mark u v b s).pdoCount = s.pdoCount := rfl
@[simp] theorem mark_remaining (u v : Sample) (b : Bool) (s : State) : (mark u v b s).remaining = s.remaining := rfl
@[simp] theorem mark_objIndex (u v : Sample) (b : Bool) (s : State) : (mark u v b s).objIndex = s.objIndex := rfl
@[simp] theorem mark_crc (u v : Sample) (b : Bool) (s : State) : (mark u v b s).crc = s.crc := rfl
@[simp] theorem mark_cfg (u v : Sample) (b : Bool) (s : State) : (mark u v b s).cfg = s.cfg := rfl
@[simp] theorem mark_ev (u v : Sample) (b : Bool) (s : State) : (mark u v b s).ev = s.ev := rfl
@[simp] theorem mark_stopReq (u v : Sample) (b : Bool) (s : State) : (mark u v b s).stopReq = s.stopReq := rfl
@[simp] theorem mark_resetReq (u v : Sample) (b : Bool) (s : State) : (mark u v b s).resetReq = s.resetReq := rfl
@[simp] theorem mark_input (u v : Sample) (b : Bool) (s : State) : (mark u v b s).input = s.input := rfl
@[simp] theorem mark_frames (u v : Sample) (b : Bool) (s : State) : (mark u v b s).frames = s.frames := rfl
@[simp] theorem mark_markers (u v : Sample) (b : Bool) (s : State) : (mark u v b s).markers = s.markers ++ [⟨midpoint u v, b⟩] := rfl
@[simp] theorem mark_trace (u v : Sample) (b : Bool) (s : State) : (mark u v b s).trace = s.trace := rfl

/-! ### signal -/

@[simp] theorem signal_st (k : EventKind) (t : Sample) (s : State) : (signal k t s).st = s.st := rfl
@[simp] theorem signal_cur (k : EventKind) (t : Sample) (s : State) : (signal k t s).cur = s.cur := rfl
@[simp] theorem signal_bph (k : EventKind) (t : Sample) (s : State) : (signal k t s).bph = s.bph := rfl
@[simp] theorem signal_bitT0 (k : EventKind) (t : Sample) (s : State) : (signal k t s).bitT0 = s.bitT0 := rfl
@[simp] theorem signal_preCnt (k : EventKind) (t : Sample) (s : State) : (signal k t s).preCnt = s.preCnt := rfl
@[simp] theorem signal_preExp (k : EventKind) (t : Sample) (s : State) : (signal k t s).preExp = s.preExp := rfl
@[simp] theorem signal_preStart (k : EventKind) (t : Sample) (s : State) : (signal k t s).preStart = s.preStart := rfl
@[simp] theorem signal_sopRx (k : EventKind) (t : Sample) (s : State) : (signal k t s).sopRx = s.sopRx := rfl
@[simp] theorem signal_symSr (k : EventKind) (t : Sample) (s : State) : (signal k t s).symSr = s.symSr := rfl
@[simp] theorem signal_symCnt (k : EventKind) (t : Sample) (s : State) : (signal k t s).symCnt = s.symCnt := rfl
@[simp] theorem signal_symStart (k : EventKind) (t : Sample) (s : State) : (signal k t s).symStart = s.symStart := rfl
@[simp] theorem signal_unitStart (k : EventKind) (t : Sample) (s : State) : (signal k t s).unitStart = s.unitStart := rfl
@[simp] theorem signal_unitSym (k : EventKind) (t : Sample) (s : State) : (signal k t s).unitSym = s.unitSym := rfl
@[simp] theorem signal_nibLo (k : EventKind) (t : Sample) (s : State) : (signal k t s).nibLo = s.nibLo := rfl
@[simp] theorem signal_byteStart (k : EventKind) (t : Sample) (s : State) : (signal k t s).byteStart = s.byteStart := rfl
@[simp] theorem signal_acc (k : EventKind) (t : Sample) (s : State) : (signal k t s).acc = s.acc := rfl
@[simp] theorem signal_hdr (k : EventKind) (t : Sample) (s : State) : (signal k t s).hdr = s.hdr := rfl
@[simp] theorem signal_sopType (k : EventKind) (t : Sample) (s : State) : (signal k t s).sopType = s.sopType := rfl
@[simp] theorem signal_pdoList (k : EventKind) (t : Sample) (s : State) : (signal k t s).pdoList = s.pdoList := rfl
@[simp] theorem signal_pdoCount (k : EventKind) (t : Sample) (s : State) : (signal k t s).pdoCount = s.pdoCount := rfl
@[simp] theorem signal_remaining (k : EventKind) (t : Sample) (s : State) : (signal k t s).remaining = s.remaining := rfl
@[simp] theorem signal_objIndex (k : EventKind) (t : Sample) (s : State) : (signal k t s).objIndex = s.objIndex := rfl
@[simp] theorem signal_crc (k : EventKind) (t : Sample) (s : State) : (signal k t s).crc = s.crc := rfl
@[simp] theorem signal_cfg (k : EventKind) (t : Sample) (s : State) : (signal k t s).cfg = s.cfg := rfl
@[simp] theorem signal_ev (k : EventKind) (t : Sample) (s : State) : (signal k t s).ev = s.ev.assert k := rfl
@[simp] theorem signal_stopReq (k : EventKind) (t : Sample) (s : State) : (signal k t s).stopReq = s.stopReq := rfl
@[simp] theorem signal_resetReq (k : EventKind) (t : Sample) (s : State) : (signal k t s).resetReq = s.resetReq := rfl
@[simp] theorem signal_input (k : EventKind) (t : Sample) (s : State) : (signal k t s).input = s.input := rfl
@[simp] theorem signal_frames (k : EventKind) (t : Sample) (s : State) : (signal k t s).frames = s.frames := rfl
@[simp] theorem signal_markers (k : EventKind) (t : Sample) (s : State) : (signal k t s).markers = s.markers := rfl
@[simp] theorem signal_trace (k : EventKind) (t : Sample) (s : State) : (signal k t s).trace = s.trace ++ [⟨k, t⟩] := rfl

/-! ### clearEvents -/

@[simp] theorem clearEvents_st (s : State) : (clearEvents s).st = s.st := rfl
@[simp] theorem clearEvents_cur (s : State) : (clearEvents s).cur = s.cur := rfl
@[simp] theorem clearEvents_bph (s : State) : (clearEvents s).bph = s.bph := rfl
@[simp] theorem clearEvents_bitT0 (s : State) : (clearEvents s).bitT0 = s.bitT0 := rfl
@[simp] theorem clearEvents_preCnt (s : State) : (clearEvents s).preCnt = s.preCnt := rfl
@[simp] theorem clearEvents_preExp (s : State) : (clearEvents s).preExp = s.preExp := rfl
@[simp] theorem clearEvents_preStart (s : State) : (clearEvents s).preStart = s.preStart := rfl
@[simp] theorem clearEvents_sopRx (s : State) : (clearEvents s).sopRx = s.sopRx := rfl
@[simp] theorem clearEvents_symSr (s : State) : (clearEvents s).symSr = s.symSr := rfl
@[simp] theorem clearEvents_symCnt (s : State) : (clearEvents s).symCnt = s.symCnt := rfl
@[simp] theorem clearEvents_symStart (s : State) : (clearEvents s).symStart = s.symStart := rfl
@[simp] theorem clearEvents_unitStart (s : State) : (clearEvents s).unitStart = s.unitStart := rfl
@[simp] theorem clearEvents_unitSym (s : State) : (clearEvents s).unitSym = s.unitSym := rfl
@[simp] theorem clearEvents_nibLo (s : State) : (clearEvents s).nibLo = s.nibLo := rfl
@[simp] theorem clearEvents_byteStart (s : State) : (clearEvents s).byteStart = s.byteStart := rfl
@[simp] theorem clearEvents_acc (s : State) : (clearEvents s).acc = s.acc := rfl
@[simp] theorem clearEvents_hdr (s : State) : (clearEvents s).hdr = s.hdr := rfl
@[simp] theorem clearEvents_sopType (s : State) : (clearEvents s).sopType = s.sopType := rfl
@[simp] theorem clearEvents_pdoList (s : State) : (clearEvents s).pdoList = s.pdoList := rfl
@[simp] theorem clearEvents_pdoCount (s : State) : (clearEvents s).pdoCount = s.pdoCount := rfl
@[simp] theorem clearEvents_remaining (s : State) : (clearEvents s).remaining = s.remaining := rfl
@[simp] theorem clearEvents_objIndex (s : State) : (clearEvents s).objIndex = s.objIndex := rfl
@[simp] theorem clearEvents_crc (s : State) : (clearEvents s).crc = s.crc := rfl
@[simp] theorem clearEvents_cfg (s : State) : (clearEvents s).cfg = s.cfg := rfl
@[simp] theorem clearEvents_ev (s : State) : (clearEvents s).ev = Events.none := rfl
@[simp] theorem clearEvents_stopReq (s : State) : (clearEvents s).stopReq = s.stopReq := rfl
@[simp] theorem clearEvents_resetReq (s : State) : (clearEvents s).resetReq = s.resetReq := rfl
@[simp] theorem clearEvents_input (s : State) : (clearEvents s).input = s.input := rfl
@[simp] theorem clearEvents_frames (s : State) : (clearEvents s).frames = s.frames := rfl
@[simp] theorem clearEvents_markers (s : State) : (clearEvents s).markers = s.markers := rfl
@[simp] theorem clearEvents_trace (s : State) : (clearEvents s).trace = s.trace := rfl

/-! ### openUnit -/

@[simp] theorem openUnit_st (s : State) : (openUnit s).st = s.st := rfl
@[simp] theorem openUnit_cur (s : State) : (openUnit s).cur = s.cur := rfl
@[simp] theorem openUnit_bph (s : State) : (openUnit s).bph = s.bph := rfl
@[simp] theorem openUnit_bitT0 (s : State) : (openUnit s).bitT0 = s.bitT0 := rfl
@[simp] theorem openUnit_preCnt (s : State) : (openUnit s).preCnt = s.preCnt := rfl
@[simp] theorem openUnit_preExp (s : State) : (openUnit s).preExp = s.preExp := rfl
@[simp] theorem openUnit_preStart (s : State) : (openUnit s).preStart = s.preStart := rfl
@[simp] theorem openUnit_sopRx (s : State) : (openUnit s).sopRx = s.sopRx := rfl
@[simp] theorem openUnit_symSr (s : State) : (openUnit s).symSr = s.symSr := rfl
@[simp] theorem openUnit_symCnt (s : State) : (openUnit s).symCnt = s.symCnt := rfl
@[simp] theorem openUnit_symStart (s : State) : (openUnit s).symStart = s.symStart := rfl
@[simp] theorem openUnit_unitStart (s : State) : (openUnit s).unitStart = s.cur := rfl
@[simp] theorem openUnit_unitSym (s : State) : (openUnit s).unitSym = 0#3 := rfl
@[simp] theorem openUnit_nibLo (s : State) : (openUnit s).nibLo = s.nibLo := rfl
@[simp] theorem openUnit_byteStart (s : State) : (openUnit s).byteStart = s.byteStart := rfl
@[simp] theorem openUnit_acc (s : State) : (openUnit s).acc = 0#32 := rfl
@[simp] theorem openUnit_hdr (s : State) : (openUnit s).hdr = s.hdr := rfl
@[simp] theorem openUnit_sopType (s : State) : (openUnit s).sopType = s.sopType := rfl
@[simp] theorem openUnit_pdoList (s : State) : (openUnit s).pdoList = s.pdoList := rfl
@[simp] theorem openUnit_pdoCount (s : State) : (openUnit s).pdoCount = s.pdoCount := rfl
@[simp] theorem openUnit_remaining (s : State) : (openUnit s).remaining = s.remaining := rfl
@[simp] theorem openUnit_objIndex (s : State) : (openUnit s).objIndex = s.objIndex := rfl
@[simp] theorem openUnit_crc (s : State) : (openUnit s).crc = s.crc := rfl
@[simp] theorem openUnit_cfg (s : State) : (openUnit s).cfg = s.cfg := rfl
@[simp] theorem openUnit_ev (s : State) : (openUnit s).ev = s.ev := rfl
@[simp] theorem openUnit_stopReq (s : State) : (openUnit s).stopReq = s.stopReq := rfl
@[simp] theorem openUnit_resetReq (s : State) : (openUnit s).resetReq = s.resetReq := rfl
@[simp] theorem openUnit_input (s : State) : (openUnit s).input = s.input := rfl
@[simp] theorem openUnit_frames (s : State) : (openUnit s).frames = s.frames := rfl
@[simp] theorem openUnit_markers (s : State) : (openUnit s).markers = s.markers := rfl
@[simp] theorem openUnit_trace (s : State) : (openUnit s).trace = s.trace := rfl

/-! ### pdoClear -/

@[simp] theorem pdoClear_st (s : State) : (pdoClear s).st = s.st := rfl
@[simp] theorem pdoClear_cur (s : State) : (pdoClear s).cur = s.cur := rfl
@[simp] theorem pdoClear_bph (s : State) : (pdoClear s).bph = s.bph := rfl
@[simp] theorem pdoClear_bitT0 (s : State) : (pdoClear s).bitT0 = s.bitT0 := rfl
@[simp] theorem pdoClear_preCnt (s : State) : (pdoClear s).preCnt = s.preCnt := rfl
@[simp] theorem pdoClear_preExp (s : State) : (pdoClear s).preExp = s.preExp := rfl
@[simp] theorem pdoClear_preStart (s : State) : (pdoClear s).preStart = s.preStart := rfl
@[simp] theorem pdoClear_sopRx (s : State) : (pdoClear s).sopRx = s.sopRx := rfl
@[simp] theorem pdoClear_symSr (s : State) : (pdoClear s).symSr = s.symSr := rfl
@[simp] theorem pdoClear_symCnt (s : State) : (pdoClear s).symCnt = s.symCnt := rfl
@[simp] theorem pdoClear_symStart (s : State) : (pdoClear s).symStart = s.symStart := rfl
@[simp] theorem pdoClear_unitStart (s : State) : (pdoClear s).unitStart = s.unitStart := rfl
@[simp] theorem pdoClear_unitSym (s : State) : (pdoClear s).unitSym = s.unitSym := rfl
@[simp] theorem pdoClear_nibLo (s : State) : (pdoClear s).nibLo = s.nibLo := rfl
@[simp] theorem pdoClear_byteStart (s : State) : (pdoClear s).byteStart = s.byteStart := rfl
@[simp] theorem pdoClear_acc (s : State) : (pdoClear s).acc = s.acc := rfl
@[simp] theorem pdoClear_hdr (s : State) : (pdoClear s).hdr = s.hdr := rfl
@[simp] theorem pdoClear_sopType (s : State) : (pdoClear s).sopType = s.sopType := rfl
@[simp] theorem pdoClear_pdoList (s : State) : (pdoClear s).pdoList = s.pdoList := rfl
@[simp] theorem pdoClear_pdoCount (s : State) : (pdoClear s).pdoCount = 0#3 := rfl
@[simp] theorem pdoClear_remaining (s : State) : (pdoClear s).remaining = s.remaining := rfl
@[simp] theorem pdoClear_objIndex (s : State) : (pdoClear s).objIndex = s.objIndex := rfl
@[simp] theorem pdoClear_crc (s : State) : (pdoClear s).crc = s.crc := rfl
@[simp] theorem pdoClear_cfg (s : State) : (pdoClear s).cfg = s.cfg := rfl
@[simp] theorem pdoClear_ev (s : State) : (pdoClear s).ev = s.ev := rfl
@[simp] theorem pdoClear_stopReq (s : State) : (pdoClear s).stopReq = s.stopReq := rfl
@[simp] theorem pdoClear_resetReq (s : State) : (pdoClear s).resetReq = s.resetReq := rfl
@[simp] theorem pdoClear_input (s : State) : (pdoClear s).input = s.input := rfl
@[simp] theorem pdoClear_frames (s : State) : (pdoClear s).frames = s.frames := rfl
@[simp] theorem pdoClear_markers (s : State) : (pdoClear s).markers = s.markers := rfl
@[simp] theorem pdoClear_trace (s : State) : (pdoClear s).trace = s.trace := rfl

/-! ### enterSearch -/

@[simp] theorem enterSearch_st (t : Sample) (s : State) : (enterSearch t s).st = searchState s.stopReq := rfl
@[simp] theorem enterSearch_cur (t : Sample) (s : State) : (enterSearch t s).cur = s.cur := rfl
@[simp] theorem enterSearch_bph (t : Sample) (s : State) : (enterSearch t s).bph = s.bph := rfl
@[simp] theorem enterSearch_bitT0 (t : Sample) (s : State) : (enterSearch t s).bitT0 = s.bitT0 := rfl
@[simp] theorem enterSearch_preCnt (t : Sample) (s : State) : (enterSearch t s).preCnt = 0#6 := rfl
@[simp] theorem enterSearch_preExp (t : Sample) (s : State) : (enterSearch t s).preExp = true := rfl
@[simp] theorem enterSearch_preStart (t : Sample) (s : State) : (enterSearch t s).preStart = t := rfl
@[simp] theorem enterSearch_sopRx (t : Sample) (s : State) : (enterSearch t s).sopRx = s.sopRx := rfl
@[simp] theorem enterSearch_symSr (t : Sample) (s : State) : (enterSearch t s).symSr = s.symSr := rfl
@[simp] theorem enterSearch_symCnt (t : Sample) (s : State) : (enterSearch t s).symCnt = s.symCnt := rfl
@[simp] theorem enterSearch_symStart (t : Sample) (s : State) : (enterSearch t s).symStart = s.symStart := rfl
@[simp] theorem enterSearch_unitStart (t : Sample) (s : State) : (enterSearch t s).unitStart = s.unitStart := rfl
@[simp] theorem enterSearch_unitSym (t : Sample) (s : State) : (enterSearch t s).unitSym = s.unitSym := rfl
@[simp] theorem enterSearch_nibLo (t : Sample) (s : State) : (enterSearch t s).nibLo = s.nibLo := rfl
@[simp] theorem enterSearch_byteStart (t : Sample) (s : State) : (enterSearch t s).byteStart = s.byteStart := rfl
@[simp] theorem enterSearch_acc (t : Sample) (s : State) : (enterSearch t s).acc = s.acc := rfl
@[simp] theorem enterSearch_hdr (t : Sample) (s : State) : (enterSearch t s).hdr = s.hdr := rfl
@[simp] theorem enterSearch_sopType (t : Sample) (s : State) : (enterSearch t s).sopType = s.sopType := rfl
@[simp] theorem enterSearch_pdoList (t : Sample) (s : State) : (enterSearch t s).pdoList = s.pdoList := rfl
@[simp] theorem enterSearch_pdoCount (t : Sample) (s : State) : (enterSearch t s).pdoCount = s.pdoCount := rfl
@[simp] theorem enterSearch_remaining (t : Sample) (s : State) : (enterSearch t s).remaining = s.remaining := rfl
@[simp] theorem enterSearch_objIndex (t : Sample) (s : State) : (enterSearch t s).objIndex = s.objIndex := rfl
@[simp] theorem enterSearch_crc (t : Sample) (s : State) : (enterSearch t s).crc = s.crc := rfl
@[simp] theorem enterSearch_cfg (t : Sample) (s : State) : (enterSearch t s).cfg = s.cfg := rfl
@[simp] theorem enterSearch_ev (t : Sample) (s : State) : (enterSearch t s).ev = s.ev := rfl
@[simp] theorem enterSearch_stopReq (t : Sample) (s : State) : (enterSearch t s).stopReq = s.stopReq := rfl
@[simp] theorem enterSearch_resetReq (t : Sample) (s : State) : (enterSearch t s).resetReq = s.resetReq := rfl
@[simp] theorem enterSearch_input (t : Sample) (s : State) : (enterSearch t s).input = s.input := rfl
@[simp] theorem enterSearch_frames (t : Sample) (s : State) : (enterSearch t s).frames = s.frames := rfl
@[simp] theorem enterSearch_markers (t : Sample) (s : State) : (enterSearch t s).markers = s.markers := rfl
@[simp] theorem enterSearch_trace (t : Sample) (s : State) : (enterSearch t s).trace = s.trace := rfl

/-! ### enterMid -/

@[simp] theorem enterMid_st (t : Sample) (s : State) : (enterMid t s).st = s.st := rfl
@[simp] theorem enterMid_cur (t : Sample) (s : State) : (enterMid t s).cur = t := rfl
@[simp] theorem enterMid_bph (t : Sample) (s : State) : (enterMid t s).bph = .mid := rfl
@[simp] theorem enterMid_bitT0 (t : Sample) (s : State) : (enterMid t s).bitT0 = s.cur := rfl
@[simp] theorem enterMid_preCnt (t : Sample) (s : State) : (enterMid t s).preCnt = s.preCnt := rfl
@[simp] theorem enterMid_preExp (t : Sample) (s : State) : (enterMid t s).preExp = s.preExp := rfl
@[simp] theorem enterMid_preStart (t : Sample) (s : State) : (enterMid t s).preStart = s.preStart := rfl
@[simp] theorem enterMid_sopRx (t : Sample) (s : State) : (enterMid t s).sopRx = s.sopRx := rfl
@[simp] theorem enterMid_symSr (t : Sample) (s : State) : (enterMid t s).symSr = s.symSr := rfl
@[simp] theorem enterMid_symCnt (t : Sample) (s : State) : (enterMid t s).symCnt = s.symCnt := rfl
@[simp] theorem enterMid_symStart (t : Sample) (s : State) : (enterMid t s).symStart = s.symStart := rfl
@[simp] theorem enterMid_unitStart (t : Sample) (s : State) : (enterMid t s).unitStart = s.unitStart := rfl
@[simp] theorem enterMid_unitSym (t : Sample) (s : State) : (enterMid t s).unitSym = s.unitSym := rfl
@[simp] theorem enterMid_nibLo (t : Sample) (s : State) : (enterMid t s).nibLo = s.nibLo := rfl
@[simp] theorem enterMid_byteStart (t : Sample) (s : State) : (enterMid t s).byteStart = s.byteStart := rfl
@[simp] theorem enterMid_acc (t : Sample) (s : State) : (enterMid t s).acc = s.acc := rfl
@[simp] theorem enterMid_hdr (t : Sample) (s : State) : (enterMid t s).hdr = s.hdr := rfl
@[simp] theorem enterMid_sopType (t : Sample) (s : State) : (enterMid t s).sopType = s.sopType := rfl
@[simp] theorem enterMid_pdoList (t : Sample) (s : State) : (enterMid t s).pdoList = s.pdoList := rfl
@[simp] theorem enterMid_pdoCount (t : Sample) (s : State) : (enterMid t s).pdoCount = s.pdoCount := rfl
@[simp] theorem enterMid_remaining (t : Sample) (s : State) : (enterMid t s).remaining = s.remaining := rfl
@[simp] theorem enterMid_objIndex (t : Sample) (s : State) : (enterMid t s).objIndex = s.objIndex := rfl
@[simp] theorem enterMid_crc (t : Sample) (s : State) : (enterMid t s).crc = s.crc := rfl
@[simp] theorem enterMid_cfg (t : Sample) (s : State) : (enterMid t s).cfg = s.cfg := rfl
@[simp] theorem enterMid_ev (t : Sample) (s : State) : (enterMid t s).ev = s.ev := rfl
@[simp] theorem enterMid_stopReq (t : Sample) (s : State) : (enterMid t s).stopReq = s.stopReq := rfl
@[simp] theorem enterMid_resetReq (t : Sample) (s : State) : (enterMid t s).resetReq = s.resetReq := rfl
@[simp] theorem enterMid_input (t : Sample) (s : State) : (enterMid t s).input = s.input := rfl
@[simp] theorem enterMid_frames (t : Sample) (s : State) : (enterMid t s).frames = s.frames := rfl
@[simp] theorem enterMid_markers (t : Sample) (s : State) : (enterMid t s).markers = s.markers := rfl
@[simp] theorem enterMid_trace (t : Sample) (s : State) : (enterMid t s).trace = s.trace := rfl

/-! ### consume -/

@[simp] theorem consume_st (e : Edge) (r : List Edge) (s : State) : (consume e r s).st = s.st := rfl
@[simp] theorem consume_cur (e : Edge) (r : List Edge) (s : State) : (consume e r s).cur = s.cur := rfl
@[simp] theorem consume_bph (e : Edge) (r : List Edge) (s : State) : (consume e r s).bph = s.bph := rfl
@[simp] theorem consume_bitT0 (e : Edge) (r : List Edge) (s : State) : (consume e r s).bitT0 = s.bitT0 := rfl
@[simp] theorem consume_preCnt (e : Edge) (r : List Edge) (s : State) : (consume e r s).preCnt = s.preCnt := rfl
@[simp] theorem consume_preExp (e : Edge) (r : List Edge) (s : State) : (consume e r s).preExp = s.preExp := rfl
@[simp] theorem consume_preStart (e : Edge) (r : List Edge) (s : State) : (consume e r s).preStart = s.preStart := rfl
@[simp] theorem consume_sopRx (e : Edge) (r : List Edge) (s : State) : (consume e r s).sopRx = s.sopRx := rfl
@[simp] theorem consume_symSr (e : Edge) (r : List Edge) (s : State) : (consume e r s).symSr = s.symSr := rfl
@[simp] theorem consume_symCnt (e : Edge) (r : List Edge) (s : State) : (consume e r s).symCnt = s.symCnt := rfl
@[simp] theorem consume_symStart (e : Edge) (r : List Edge) (s : State) : (consume e r s).symStart = s.symStart := rfl
@[simp] theorem consume_unitStart (e : Edge) (r : List Edge) (s : State) : (consume e r s).unitStart = s.unitStart := rfl
@[simp] theorem consume_unitSym (e : Edge) (r : List Edge) (s : State) : (consume e r s).unitSym = s.unitSym := rfl
@[simp] theorem consume_nibLo (e : Edge) (r : List Edge) (s : State) : (consume e r s).nibLo = s.nibLo := rfl
@[simp] theorem consume_byteStart (e : Edge) (r : List Edge) (s : State) : (consume e r s).byteStart = s.byteStart := rfl
@[simp] theorem consume_acc (e : Edge) (r : List Edge) (s : State) : (consume e r s).acc = s.acc := rfl
@[simp] theorem consume_hdr (e : Edge) (r : List Edge) (s : State) : (consume e r s).hdr = s.hdr := rfl
@[simp] theorem consume_sopType (e : Edge) (r : List Edge) (s : State) : (consume e r s).sopType = s.sopType := rfl
@[simp] theorem consume_pdoList (e : Edge) (r : List Edge) (s : State) : (consume e r s).pdoList = s.pdoList := rfl
@[simp] theorem consume_pdoCount (e : Edge) (r : List Edge) (s : State) : (consume e r s).pdoCount = s.pdoCount := rfl
@[simp] theorem consume_remaining (e : Edge) (r : List Edge) (s : State) : (consume e r s).remaining = s.remaining := rfl
@[simp] theorem consume_objIndex (e : Edge) (r : List Edge) (s : State) : (consume e r s).objIndex = s.objIndex := rfl
@[simp] theorem consume_crc (e : Edge) (r : List Edge) (s : State) : (consume e r s).crc = s.crc := rfl
@[simp] theorem consume_cfg (e : Edge) (r : List Edge) (s : State) : (consume e r s).cfg = s.cfg := rfl
@[simp] theorem consume_ev (e : Edge) (r : List Edge) (s : State) : (consume e r s).ev = s.ev := rfl
@[simp] theorem consume_stopReq (e : Edge) (r : List Edge) (s : State) : (consume e r s).stopReq = e.stopReq := rfl
@[simp] theorem consume_resetReq (e : Edge) (r : List Edge) (s : State) : (consume e r s).resetReq = s.resetReq := rfl
@[simp] theorem consume_input (e : Edge) (r : List Edge) (s : State) : (consume e r s).input = r := rfl
@[simp] theorem consume_frames (e : Edge) (r : List Edge) (s : State) : (consume e r s).frames = s.frames := rfl
@[simp] theorem consume_markers (e : Edge) (r : List Edge) (s : State) : (consume e r s).markers = s.markers := rfl
@[simp] theorem consume_trace (e : Edge) (r : List Edge) (s : State) : (consume e r s).trace = s.trace := rfl

/-! ### signalIf, by its condition -/

@[simp] theorem signalIf_st (b : Bool) (k : EventKind) (t : Sample) (s : State) :
    (signalIf b k t s).st = s.st := by cases b <;> rfl
@[simp] theorem signalIf_cur (b : Bool) (k : EventKind) (t : Sample) (s : State) :
    (signalIf b k t s).cur = s.cur := by cases b <;> rfl
@[simp] theorem signalIf_bph (b : Bool) (k : EventKind) (t : Sample) (s : State) :
    (signalIf b k t s).bph = s.bph := by cases b <;> rfl
@[simp] theorem signalIf_bitT0 (b : Bool) (k : EventKind) (t : Sample) (s : State) :
    (signalIf b k t s).bitT0 = s.bitT0 := by cases b <;> rfl
@[simp] theorem signalIf_preCnt (b : Bool) (k : EventKind) (t : Sample) (s : State) :
    (signalIf b k t s).preCnt = s.preCnt := by cases b <;> rfl
@[simp] theorem signalIf_preExp (b : Bool) (k : EventKind) (t : Sample) (s : State) :
    (signalIf b k t s).preExp = s.preExp := by cases b <;> rfl
@[simp] theorem signalIf_preStart (b : Bool) (k : EventKind) (t : Sample) (s : State) :
    (signalIf b k t s).preStart = s.preStart := by cases b <;> rfl
@[simp] theorem signalIf_sopRx (b : Bool) (k : EventKind) (t : Sample) (s : State) :
    (signalIf b k t s).sopRx = s.sopRx := by cases b <;> rfl
@[simp] theorem signalIf_symSr (b : Bool) (k : EventKind) (t : Sample) (s : State) :
    (signalIf b k t s).symSr = s.symSr := by cases b <;> rfl
@[simp] theorem signalIf_symCnt (b : Bool) (k : EventKind) (t : Sample) (s : State) :
    (signalIf b k t s).symCnt = s.symCnt := by cases b <;> rfl
@[simp] theorem signalIf_symStart (b : Bool) (k : EventKind) (t : Sample) (s : State) :
    (signalIf b k t s).symStart = s.symStart := by cases b <;> rfl
@[simp] theorem signalIf_unitStart (b : Bool) (k : EventKind) (t : Sample) (s : State) :
    (signalIf b k t s).unitStart = s.unitStart := by cases b <;> rfl
@[simp] theorem signalIf_unitSym (b : Bool) (k : EventKind) (t : Sample) (s : State) :
    (signalIf b k t s).unitSym = s.unitSym := by cases b <;> rfl
@[simp] theorem signalIf_nibLo (b : Bool) (k : EventKind) (t : Sample) (s : State) :
    (signalIf b k t s).nibLo = s.nibLo := by cases b <;> rfl
@[simp] theorem signalIf_byteStart (b : Bool) (k : EventKind) (t : Sample) (s : State) :
    (signalIf b k t s).byteStart = s.byteStart := by cases b <;> rfl
@[simp] theorem signalIf_acc (b : Bool) (k : EventKind) (t : Sample) (s : State) :
    (signalIf b k t s).acc = s.acc := by cases b <;> rfl
@[simp] theorem signalIf_hdr (b : Bool) (k : EventKind) (t : Sample) (s : State) :
    (signalIf b k t s).hdr = s.hdr := by cases b <;> rfl
@[simp] theorem signalIf_sopType (b : Bool) (k : EventKind) (t : Sample) (s : State) :
    (signalIf b k t s).sopType = s.sopType := by cases b <;> rfl
@[simp] theorem signalIf_pdoList (b : Bool) (k : EventKind) (t : Sample) (s : State) :
    (signalIf b k t s).pdoList = s.pdoList := by cases b <;> rfl
@[simp] theorem signalIf_pdoCount (b : Bool) (k : EventKind) (t : Sample) (s : State) :
    (signalIf b k t s).pdoCount = s.pdoCount := by cases b <;> rfl
@[simp] theorem signalIf_remaining (b : Bool) (k : EventKind) (t : Sample) (s : State) :
    (signalIf b k t s).remaining = s.remaining := by cases b <;> rfl
@[simp] theorem signalIf_objIndex (b : Bool) (k : EventKind) (t : Sample) (s : State) :
    (signalIf b k t s).objIndex = s.objIndex := by cases b <;> rfl
@[simp] theorem signalIf_crc (b : Bool) (k : EventKind) (t : Sample) (s : State) :
    (signalIf b k t s).crc = s.crc := by cases b <;> rfl
@[simp] theorem signalIf_cfg (b : Bool) (k : EventKind) (t : Sample) (s : State) :
    (signalIf b k t s).cfg = s.cfg := by cases b <;> rfl
@[simp] theorem signalIf_ev (b : Bool) (k : EventKind) (t : Sample) (s : State) :
    (signalIf b k t s).ev = if b then s.ev.assert k else s.ev := by cases b <;> rfl
@[simp] theorem signalIf_stopReq (b : Bool) (k : EventKind) (t : Sample) (s : State) :
    (signalIf b k t s).stopReq = s.stopReq := by cases b <;> rfl
@[simp] theorem signalIf_resetReq (b : Bool) (k : EventKind) (t : Sample) (s : State) :
    (signalIf b k t s).resetReq = s.resetReq := by cases b <;> rfl
@[simp] theorem signalIf_input (b : Bool) (k : EventKind) (t : Sample) (s : State) :
    (signalIf b k t s).input = s.input := by cases b <;> rfl
@[simp] theorem signalIf_frames (b : Bool) (k : EventKind) (t : Sample) (s : State) :
    (signalIf b k t s).frames = s.frames := by cases b <;> rfl
@[simp] theorem signalIf_markers (b : Bool) (k : EventKind) (t : Sample) (s : State) :
    (signalIf b k t s).markers = s.markers := by cases b <;> rfl
@[simp] theorem signalIf_trace (b : Bool) (k : EventKind) (t : Sample) (s : State) :
    (signalIf b k t s).trace = s.trace ++ (if b then [⟨k, t⟩] else []) := by
  cases b <;> simp [signalIf]

end Sys2Proof.Machine
end

