-- ==== Sys2Proof/Laws/Ops.lean ====
section
/-! SUPPORT. One lemma for each shared operation that says once everything it can do; proofs cite these
instead of unfolding the operation. -/

namespace Sys2Proof.Machine

/-! ### Sequencing -/

@[simp] theorem andThen_next (s : State) (f : State → Result) : andThen (.next s) f = f s := rfl

@[simp] theorem andThen_fault (e : Fault) (f : State → Result) :
    andThen (.fault e) f = .fault e := rfl

@[simp] theorem andThen_refused (e : Refusal) (f : State → Result) :
    andThen (.refused e) f = .refused e := rfl

theorem andThen_eq_next_iff (r : Result) (f : State → Result) (t : State) :
    andThen r f = .next t ↔ ∃ u, r = .next u ∧ f u = .next t := by
  cases r <;> simp

/-! ### Vectors of an ordered set -/

/-- A bit of four symbols packed together is a bit of the symbol it falls in (R86). -/
theorem getLsbD_packed (a b c d : Sym) (i : Nat) :
    (d ++ c ++ b ++ a : BitVec 20).getLsbD i =
      if i < 5 then a.getLsbD i else if i < 10 then b.getLsbD (i - 5)
      else if i < 15 then c.getLsbD (i - 10) else d.getLsbD (i - 15) := by
  refine (BitVec.getLsbD_append (x := d ++ c ++ b) (y := a) (i := i)).trans ?_
  rw [BitVec.getLsbD_append (x := d ++ c) (y := b) (i := i - 5),
    BitVec.getLsbD_append (x := d) (y := c) (i := i - 5 - 5)]
  have e1 : i - 5 - 5 = i - 10 := by omega
  have e2 : i - 10 - 5 = i - 15 := by omega
  simp only [e1, e2]
  by_cases h1 : i < 5
  · simp [h1]
  · by_cases h2 : i < 10
    · simp [h1, h2, show i - 5 < 5 by omega]
    · by_cases h3 : i < 15
      · simp [h1, h2, h3, show ¬ i - 5 < 5 by omega, show i - 10 < 5 by omega]
      · simp [h1, h2, h3, show ¬ i - 5 < 5 by omega, show ¬ i - 10 < 5 by omega]

/-- Unpacking four packed symbols gives them back (R86). -/
theorem unpackSet_packed (a b c d : Sym) :
    unpackSet (d ++ c ++ b ++ a : BitVec 20) = #v[a, b, c, d] := by
  have h0 : (d ++ c ++ b ++ a : BitVec 20).extractLsb' 0 5 = a := by
    apply BitVec.eq_of_getLsbD_eq
    intro i hi
    rw [BitVec.getLsbD_extractLsb', getLsbD_packed]
    simp [hi]
  have h1 : (d ++ c ++ b ++ a : BitVec 20).extractLsb' 5 5 = b := by
    apply BitVec.eq_of_getLsbD_eq
    intro i hi
    rw [BitVec.getLsbD_extractLsb', getLsbD_packed]
    simp [hi, show 5 + i < 10 by omega]
  have h2 : (d ++ c ++ b ++ a : BitVec 20).extractLsb' 10 5 = c := by
    apply BitVec.eq_of_getLsbD_eq
    intro i hi
    rw [BitVec.getLsbD_extractLsb', getLsbD_packed]
    simp [hi, show ¬ 10 + i < 5 by omega, show 10 + i < 15 by omega]
  have h3 : (d ++ c ++ b ++ a : BitVec 20).extractLsb' 15 5 = d := by
    apply BitVec.eq_of_getLsbD_eq
    intro i hi
    rw [BitVec.getLsbD_extractLsb', getLsbD_packed]
    simp [hi, show ¬ 15 + i < 5 by omega, show ¬ 15 + i < 10 by omega]
  simp only [unpackSet, h0, h1, h2, h3]

/-- Unpacking a packed ordered set gives the ordered set back (R86). -/
theorem unpackSet_packSet (rx : Vector Sym 4) : unpackSet (packSet rx) = rx := by
  have e : rx = #v[rx[0], rx[1], rx[2], rx[3]] := by
    apply Vector.ext
    intro i hi
    match i, hi with
    | 0, _ => rfl
    | 1, _ => rfl
    | 2, _ => rfl
    | 3, _ => rfl
  exact (unpackSet_packed _ _ _ _).trans e.symm

/-! ### Symbols -/

/-- What every symbol instruction does: the shared meaning of its value (R150). -/
theorem exec_decodeSym (x : Sym) (s : State) : exec (decodeSym x) s = symbolMeaning x s := by
  obtain ⟨⟨k, hk⟩⟩ := x
  change k < 32 at hk
  interval_cases k <;> rfl

/-- If a symbol in `AWAIT_SOP` answers a next state, it was stored and counted (R135). -/
theorem sopSymbol_eq_next (x : Sym) (s t : State) (h : sopSymbol x s = .next t) :
    ∃ hk : s.unitSym.toNat < 4,
      t = { s with sopRx := s.sopRx.set s.unitSym.toNat x hk, unitSym := s.unitSym + 1#3 } := by
  unfold sopSymbol at h
  split at h
  · exact ⟨‹_›, by cases h; rfl⟩
  · cases h

/-! ### Header classes -/

/-- What the message's class does with an object (R197). -/
def objectPart : Kind → Word → Sample → State → Result
  | .control => fun _ _ s => .next s
  | .srcCap => sourcePdo
  | .request => fun v us s => .next (requestObject v us s)
  | .vdm => fun v us s => .next (vdmObject v us s)
  | .other => fun v us s => .next (dataObject v us s)

/-- What every Header class does: the shared meaning with its own part (R195, R197). -/
theorem exec_decodeHdr (c : Cfg) (h : Header) (s : State) :
    exec (decodeHdr c h) s =
      headerMeaning (kind c h == .srcCap) h (objectPart (kind c h)) s := by
  unfold decodeHdr
  cases kind c h <;> rfl

/-- Every SOP variant's instruction is `sop_found` of its index (R137). -/
theorem exec_variantInstr (v : Fin 5) (s : State) :
    exec (variantInstr v) s = .next (sopFound (BitVec.ofNat 3 v) s) := by
  fin_cases v <;> rfl

/-- An entry the list has takes the value written to it; the others keep theirs (R198, P13). -/
theorem writePdo_getElem (c : Cfg) (k j : Nat) (v : Word) (l : Vector Word 7) (hj : j < 7) :
    (writePdo c k v l)[j] = if k = j ∧ k < c.pdoListDepth then v else l[j] := by
  unfold writePdo
  by_cases h : k < 7 ∧ k < c.pdoListDepth
  · rw [dif_pos h, Vector.getElem_set]
    by_cases hk : k = j
    · rw [if_pos hk, if_pos ⟨hk, h.2⟩]
    · rw [if_neg hk, if_neg fun e => hk e.1]
  · rw [dif_neg h, if_neg]
    rintro ⟨rfl, hd⟩
    exact h ⟨hj, hd⟩

/-- Reading the entry just written, where the list has it, gives the value written (R198, R200). -/
theorem readPdo_writePdo (c : Cfg) (k : Nat) (v : Word) (l : Vector Word 7)
    (h : k < 7 ∧ k < c.pdoListDepth) : readPdo c k (writePdo c k v l) = v := by
  unfold readPdo
  rw [dif_pos h, writePdo_getElem, if_pos ⟨rfl, h.2⟩]

/-- An entry the list has is read from its register (R200). -/
theorem readPdo_of_lt (c : Cfg) (k : Nat) (l : Vector Word 7) (h : k < 7) (hd : k < c.pdoListDepth) :
    readPdo c k l = l[k] := dif_pos ⟨h, hd⟩

/-- An entry the list does not have reads as the free value (log 26). -/
theorem readPdo_absent (c : Cfg) (k : Nat) (l : Vector Word 7) (h : c.pdoListDepth ≤ k) :
    readPdo c k l = Config.absentEntry k := dif_neg fun e => absurd e.2 (by omega)

/-- A position from 1 to the length refers to an entry (R200). -/
theorem pdoAt_eq_some (pos : Nat) (s : State) (h1 : 1 ≤ pos) (h2 : pos ≤ s.pdoCount.toNat) :
    pdoAt pos s = some (readPdo s.cfg (pos - 1) s.pdoList) := if_pos ⟨h1, h2⟩

/-- Position 0, or one above the length, refers to none (R200(a), (b)). -/
theorem pdoAt_eq_none (pos : Nat) (s : State) (h : pos = 0 ∨ s.pdoCount.toNat < pos) :
    pdoAt pos s = none := if_neg fun e => by omega

/-- If a Source Capabilities object answers a next state, it was reported and stored (R198). -/
theorem sourcePdo_eq_next (v : Word) (us : Sample) (s t : State)
    (h : sourcePdo v us s = .next t) :
    s.objIndex.toNat < 7 ∧
      t = { emit .sourcePdo (v.zeroExtend 64) 0#64 us s.cur s with
        pdoList := writePdo s.cfg s.objIndex.toNat v s.pdoList
        pdoCount := s.objIndex + 1#3 } := by
  unfold sourcePdo at h
  split at h
  · exact ⟨‹_›, by cases h; rfl⟩
  · cases h

/-- If an object of a message answers a next state, its class's part did, and the next object was opened
(R197). -/
theorem objectDone_eq_next (part : Word → Sample → State → Result) (s t : State) :
    objectDone part s = .next t ↔
      ∃ u, part s.acc s.unitStart { s with crc := crcUpdate s.cfg.crcPoly s.crc (bytesLE 4 s.acc) } = .next u ∧
        t = nextObject u := by
  simp only [objectDone, andThen_eq_next_iff, Host.Outcome.next.injEq]
  constructor <;> rintro ⟨u, h, rfl⟩ <;> exact ⟨u, h, rfl⟩

/-! ### The search -/

@[simp] theorem searchState_true : searchState true = .halted := rfl

@[simp] theorem searchState_false : searchState false = .searchPreamble := rfl

/-- The state an entry into the search leads to is the search, or `HALTED` when cancelled (R130). -/
theorem searchState_eq (b : Bool) : searchState b = if b then .halted else .searchPreamble := by
  cases b <;> rfl

/-- The two states an entry into the search can lead to (R130). -/
theorem searchState_cases (b : Bool) :
    (b = true ∧ searchState b = .halted) ∨ (b = false ∧ searchState b = .searchPreamble) := by
  cases b <;> simp [searchState]

/-! ### Units, field by field -/

/-- What `header_done` leaves, field by field (R195). -/
theorem headerDone_eq (b : Bool) (h : Header) (s : State) :
    headerDone b h s =
      { s with
        hdr := h
        crc := crcUpdate s.cfg.crcPoly s.crc (bytesLE 2 h)
        frames := s.frames ++
          [⟨.header, h.zeroExtend 64, s.sopType.zeroExtend 64, s.unitStart, s.cur⟩]
        remaining := ndo h
        objIndex := 0#3
        unitStart := s.cur
        unitSym := 0#3
        acc := 0#32
        pdoCount := if b && ndo h != 0#3 then 0#3 else s.pdoCount
        st := if ndo h = 0#3 then .awaitCrc else .readPayload } := by
  unfold headerDone
  cases b && ndo h != 0#3 <;> rfl

/-- What follows the part of an object's class, field by field (R197, R204). -/
theorem nextObject_eq (s : State) :
    nextObject s =
      { s with
        objIndex := s.objIndex + 1#3
        remaining := s.remaining - 1#3
        unitStart := s.cur
        unitSym := 0#3
        acc := 0#32
        st := if s.remaining - 1#3 = 0#3 then .awaitCrc else s.st } := by
  unfold nextObject
  dsimp only
  split
  · rename_i h0
    rw [if_pos (show s.remaining - 1#3 = 0#3 from h0)]
    rfl
  · rename_i h0
    rw [if_neg (show ¬ s.remaining - 1#3 = 0#3 from h0)]
    rfl

/-- What the trailer leaves, field by field (R205). -/
theorem crcDone_eq (s : State) :
    crcDone s =
      { s with
        frames := s.frames ++
          [⟨.crc32, s.acc.zeroExtend 64, s.crc.zeroExtend 64, s.unitStart, s.cur⟩]
        ev := if s.acc != s.crc then s.ev.assert .crcMismatch else s.ev
        trace := s.trace ++ (if s.acc != s.crc then [⟨.crcMismatch, s.cur⟩] else [])
        st := .awaitEop
        unitStart := s.cur
        unitSym := 0#3
        acc := 0#32 } := by
  unfold crcDone
  cases h : s.acc != s.crc <;> simp [signalIf, signal, emit, openUnit]

/-- What an object of each class leaves, when there is one: its Frame, and no register but the list, its
length and the reference event (R198 to R202). -/
theorem objectPart_eq_next (k : Kind) (v : Word) (us : Sample) (s t : State)
    (h : objectPart k v us s = .next t) :
    ∃ fs : List Frame, fs.length ≤ 1 ∧
      t = { s with
        frames := s.frames ++ fs
        pdoList := t.pdoList
        pdoCount := t.pdoCount
        ev := t.ev
        trace := t.trace } := by
  cases k
  · cases h
    exact ⟨[], by simp, by simp⟩
  · obtain ⟨hk, rfl⟩ := sourcePdo_eq_next _ _ _ _ h
    exact ⟨_, by simp, rfl⟩
  · cases h
    unfold requestObject resolve dataObject
    split
    · cases pdoAt (objPos s.cfg v) s <;> exact ⟨_, by simp, rfl⟩
    · exact ⟨_, by simp, rfl⟩
  · cases h
    unfold vdmObject dataObject
    split <;> exact ⟨_, by simp, rfl⟩
  · cases h
    exact ⟨_, by simp, rfl⟩

/-! ### Running a unit -/

/-- The completed ordered set is decoded by the classification of the four symbols (R136). -/
theorem runUnit_awaitSop (s : State) (h : s.st = .awaitSop) :
    runUnit s =
      match sopClassify s.cfg s.sopRx with
      | some v => .next (sopFound (BitVec.ofNat 3 v) s)
      | none => .next (sopError s) := by
  simp only [runUnit, h, decode, decodeSet, unpackSet_packSet]
  cases sopClassify s.cfg s.sopRx with
  | none => rfl
  | some v => simp only [exec_variantInstr]

theorem runUnit_awaitHeader (s : State) (h : s.st = .awaitHeader) :
    runUnit s = .next (headerDone (kind s.cfg (s.acc.truncate 16) == .srcCap) (s.acc.truncate 16) s) := by
  simp only [runUnit, h, exec_decodeHdr, headerMeaning]
  simp

theorem runUnit_readPayload (s : State) (h : s.st = .readPayload) :
    runUnit s = objectDone (objectPart (kind s.cfg s.hdr)) s := by
  simp only [runUnit, h, exec_decodeHdr, headerMeaning]
  simp

theorem runUnit_awaitCrc (s : State) (h : s.st = .awaitCrc) : runUnit s = .next (crcDone s) := by
  simp only [runUnit, h]

end Sys2Proof.Machine
end

