-- ==== Sys2Proof/Laws/PerInstr.lean ====
section
/-! SUPPORT. Properties of the instructions as syntax, one lemma per constructor. -/

namespace Sys2Proof.Laws.WfStable

open Sys2Proof.Machine

/-- Well-formedness reads four configuration registers only: the width of the message type and the three
message codes (R190, R196). Two configurations that agree on them agree on every instruction. -/
def Statement (i : Instr) : Prop :=
  ∀ c c' : Cfg, c.msgTypeWidth = c'.msgTypeWidth → c.mtSourceCap = c'.mtSourceCap →
    c.mtRequest = c'.mtRequest → c.mtVendor = c'.mtVendor → i.wf c = i.wf c'

/-- The class of a Header reads those four registers only (R196). -/
theorem kind_congr (h : Header) (c c' : Cfg) (hw : c.msgTypeWidth = c'.msgTypeWidth)
    (hs : c.mtSourceCap = c'.mtSourceCap) (hr : c.mtRequest = c'.mtRequest)
    (hv : c.mtVendor = c'.mtVendor) : kind c h = kind c' h := by
  have hm : Machine.mt c h = Machine.mt c' h := by unfold Machine.mt; rw [hw]
  unfold kind
  rw [hm, hs, hr, hv]

theorem inv00 : Statement .inv00 := fun _ _ _ _ _ _ => rfl

theorem inv01 : Statement .inv01 := fun _ _ _ _ _ _ => rfl

theorem inv02 : Statement .inv02 := fun _ _ _ _ _ _ => rfl

theorem inv03 : Statement .inv03 := fun _ _ _ _ _ _ => rfl

theorem inv04 : Statement .inv04 := fun _ _ _ _ _ _ => rfl

theorem inv05 : Statement .inv05 := fun _ _ _ _ _ _ => rfl

theorem sync3 : Statement .sync3 := fun _ _ _ _ _ _ => rfl

theorem rst1 : Statement .rst1 := fun _ _ _ _ _ _ => rfl

theorem inv08 : Statement .inv08 := fun _ _ _ _ _ _ => rfl

theorem d1 : Statement .d1 := fun _ _ _ _ _ _ => rfl

theorem d4 : Statement .d4 := fun _ _ _ _ _ _ => rfl

theorem d5 : Statement .d5 := fun _ _ _ _ _ _ => rfl

theorem inv0C : Statement .inv0C := fun _ _ _ _ _ _ => rfl

theorem eop : Statement .eop := fun _ _ _ _ _ _ => rfl

theorem d6 : Statement .d6 := fun _ _ _ _ _ _ => rfl

theorem d7 : Statement .d7 := fun _ _ _ _ _ _ => rfl

theorem inv10 : Statement .inv10 := fun _ _ _ _ _ _ => rfl

theorem sync2 : Statement .sync2 := fun _ _ _ _ _ _ => rfl

theorem d8 : Statement .d8 := fun _ _ _ _ _ _ => rfl

theorem d9 : Statement .d9 := fun _ _ _ _ _ _ => rfl

theorem d2 : Statement .d2 := fun _ _ _ _ _ _ => rfl

theorem d3 : Statement .d3 := fun _ _ _ _ _ _ => rfl

theorem dA : Statement .dA := fun _ _ _ _ _ _ => rfl

theorem dB : Statement .dB := fun _ _ _ _ _ _ => rfl

theorem sync1 : Statement .sync1 := fun _ _ _ _ _ _ => rfl

theorem rst2 : Statement .rst2 := fun _ _ _ _ _ _ => rfl

theorem dC : Statement .dC := fun _ _ _ _ _ _ => rfl

theorem dD : Statement .dD := fun _ _ _ _ _ _ => rfl

theorem dE : Statement .dE := fun _ _ _ _ _ _ => rfl

theorem dF : Statement .dF := fun _ _ _ _ _ _ => rfl

theorem d0 : Statement .d0 := fun _ _ _ _ _ _ => rfl

theorem inv1F : Statement .inv1F := fun _ _ _ _ _ _ => rfl

theorem sop : Statement .sop := fun _ _ _ _ _ _ => rfl

theorem sopPrime : Statement .sopPrime := fun _ _ _ _ _ _ => rfl

theorem sopDPrime : Statement .sopDPrime := fun _ _ _ _ _ _ => rfl

theorem sopPrimeDebug : Statement .sopPrimeDebug := fun _ _ _ _ _ _ => rfl

theorem sopDPrimeDebug : Statement .sopDPrimeDebug := fun _ _ _ _ _ _ => rfl

theorem control (h : Header) : Statement (.control h) := fun c c' hw hs hr hv => by
  simp only [Instr.wf, kind_congr h c c' hw hs hr hv]

theorem sourceCapabilities (h : Header) : Statement (.sourceCapabilities h) := fun c c' hw hs hr hv => by
  simp only [Instr.wf, kind_congr h c c' hw hs hr hv]

theorem request (h : Header) : Statement (.request h) := fun c c' hw hs hr hv => by
  simp only [Instr.wf, kind_congr h c c' hw hs hr hv]

theorem vendorDefined (h : Header) : Statement (.vendorDefined h) := fun c c' hw hs hr hv => by
  simp only [Instr.wf, kind_congr h c c' hw hs hr hv]

theorem otherData (h : Header) : Statement (.otherData h) := fun c c' hw hs hr hv => by
  simp only [Instr.wf, kind_congr h c c' hw hs hr hv]

end Sys2Proof.Laws.WfStable
end

