-- ==== Sys2Proof/Laws/Step.lean ====
section
/-! SUPPORT. What a step can do, said once: if it answers a next state, one of these cases holds. -/

namespace Sys2Proof.Machine

/-- Every way a step answers a next state (R110, R286, R287). -/
inductive StepCase (s t : State) : Prop where
  /-- A reset (R300). -/
  | reset (c : Cfg) (hr : s.resetReq = some c) (ha : c.admitted = true) (ht : t = resetWith c s)
  /-- No edge, or quiescent (R287). -/
  | hold (hr : s.resetReq = none) (hq : s.input = [] ∨ s.st = .halted ∨ s.st = .faulted)
      (ht : t = clearEvents s)
  /-- The positioning edge (R191). -/
  | position (e : Edge) (rest : List Edge) (he : edgeAt s e rest) (hs : s.st = .resetWait)
      (ht : t = position e.t (consume e rest (clearEvents s)))
  /-- An edge that goes backwards (R119). -/
  | backward (e : Edge) (rest : List Edge) (he : edgeAt s e rest)
      (hs : s.st = .done ∨ s.st = .searchPreamble ∨ s.st.inPacket = true) (hlt : e.t < s.cur)
      (ht : t = inputFault e.t (consume e rest (clearEvents s)))
  /-- The trailing edge (R207). -/
  | trailing (e : Edge) (rest : List Edge) (he : edgeAt s e rest) (hs : s.st = .done)
      (hle : s.cur ≤ e.t) (ht : t = skipTrailing e.t (consume e rest (clearEvents s)))
  /-- A mid-bit edge (R112). -/
  | midBit (e : Edge) (rest : List Edge) (he : edgeAt s e rest)
      (hs : s.st = .searchPreamble ∨ s.st.inPacket = true) (hle : s.cur ≤ e.t)
      (hb : s.bph = .boundary) (hw : oneWindow s.cfg (interval s.cur e.t) = true)
      (ht : t = enterMid e.t (signalIf (glitchFloor s.cfg (interval s.cur e.t)) .glitch e.t
        (consume e rest (clearEvents s))))
  /-- A bit of the preamble search (R131). -/
  | searchBit (e : Edge) (rest : List Edge) (b : Bool) (t0 : Sample) (he : edgeAt s e rest)
      (hs : s.st = .searchPreamble) (hle : s.cur ≤ e.t) (hc : closes s e b t0)
      (ht : t = preambleBit b (afterBit s e rest b t0))
  /-- A bit of a symbol that is not its last (R150). -/
  | symbolBit (e : Edge) (rest : List Edge) (b : Bool) (t0 : Sample) (he : edgeAt s e rest)
      (hs : s.st.inPacket = true) (hle : s.cur ≤ e.t) (hc : closes s e b t0)
      (hn : s.symCnt.toNat < 4) (ht : t = shiftBit b t0 (afterBit s e rest b t0))
  /-- The last bit of a symbol, which is then run (R150). -/
  | symbol (e : Edge) (rest : List Edge) (b : Bool) (t0 : Sample) (he : edgeAt s e rest)
      (hs : s.st.inPacket = true) (hle : s.cur ≤ e.t) (hc : closes s e b t0) (hn : s.symCnt = 4#3)
      (ht : runSymbol { afterBit s e rest b t0 with
        symSr := setSymBit s.symSr 4 b, symCnt := 0#3 } = .next t)

/-- The state a zero closed at a boundary leaves, as `afterBit`. -/
theorem closeBit_false_eq (s : State) (e : Edge) (rest : List Edge) (hb : s.bph = .boundary) :
    closeBit false s.cur e.t (signalIf (glitchFloor s.cfg (interval s.cur e.t)) .glitch e.t
      (consume e rest (clearEvents s))) = afterBit s e rest false s.cur := by
  obtain ⟨⟩ := s
  simp only at hb
  subst hb
  cases h : glitchFloor _ _ <;>
    simp [closeBit, mark, midpoint, signalIf, signal, consume, clearEvents, afterBit, glitches, h,
      Events.assert, Events.none]

/-- The state a one closed in the second half leaves, as `afterBit`. -/
theorem closeBit_true_eq (s : State) (e : Edge) (rest : List Edge) (hb : s.bph = .mid) :
    closeBit true s.bitT0 e.t { consume e rest (clearEvents s) with bph := .boundary } =
      afterBit s e rest true s.bitT0 := by
  obtain ⟨⟩ := s
  simp only at hb
  subst hb
  simp [closeBit, mark, midpoint, consume, clearEvents, afterBit, glitches, Events.none]

/-- A delivered bit that answers a next state (R115, R150). -/
theorem deliverBit_eq_next (b : Bool) (t0 : Sample) (s t : State)
    (hs : s.st = .searchPreamble ∨ s.st.inPacket = true) (h : deliverBit b t0 s = .next t) :
    (s.st = .searchPreamble ∧ t = preambleBit b s) ∨
    (s.st.inPacket = true ∧ s.symCnt.toNat < 4 ∧ t = shiftBit b t0 s) ∨
    (s.st.inPacket = true ∧ s.symCnt = 4#3 ∧
      runSymbol { s with symSr := setSymBit s.symSr 4 b, symCnt := 0#3 } = .next t) := by
  have hp : s.st.inPacket = true → symbolBit b t0 s = .next t →
      (s.symCnt.toNat < 4 ∧ t = shiftBit b t0 s) ∨ (s.symCnt = 4#3 ∧
        runSymbol { s with symSr := setSymBit s.symSr 4 b, symCnt := 0#3 } = .next t) := by
    intro _ hb
    unfold symbolBit at hb
    split at hb
    case isFalse => cases hb
    case isTrue h5 =>
      by_cases h4 : s.symCnt = 4#3
      · right
        refine ⟨h4, ?_⟩
        simpa [shiftBit, h4] using hb
      · left
        have hne : (shiftBit b t0 s).symCnt ≠ 5#3 := by
          have : (shiftBit b t0 s).symCnt = s.symCnt + 1#3 := by
            unfold shiftBit; split <;> rfl
          rw [this]
          intro h6
          apply h4
          bv_omega
        have hlt : s.symCnt.toNat < 4 := by
          have : s.symCnt.toNat ≠ 4 := fun h6 => h4 (by bv_omega)
          omega
        simp only [hne, if_false] at hb
        exact ⟨hlt, by cases hb; rfl⟩
  unfold deliverBit at h
  rcases hs with hs | hs
  · simp only [hs] at h
    exact .inl ⟨hs, by cases h; rfl⟩
  · right
    have : symbolBit b t0 s = .next t := by
      revert h; cases hst : s.st <;> simp_all [St.inPacket]
    rcases hp hs this with ⟨h1, h2⟩ | ⟨h1, h2⟩
    · exact .inl ⟨hs, h1, h2⟩
    · exact .inr ⟨hs, h1, h2⟩

theorem step_cases (s t : State) (h : step s = .next t) : StepCase s t := by
  unfold step blockStep at h
  split at h
  case h_1 c hr =>
    unfold takeReset at h
    split at h
    · exact .reset c hr ‹_› (by cases h; rfl)
    · cases h
  case h_2 hr =>
    unfold edgeStep at h
    simp only at h
    split at h
    case isTrue hq =>
      refine .hold hr (.inr ?_) (by cases h; rfl)
      simpa [quiescent] using hq
    case isFalse hq =>
      have hq' : s.st ≠ .halted ∧ s.st ≠ .faulted := by simpa [quiescent] using hq
      split at h
      case h_1 hi => exact .hold hr (.inl (by simpa using hi)) (by cases h; rfl)
      case h_2 e rest hi =>
        have he : edgeAt s e rest := ⟨hr, by simpa using hi⟩
        -- the states that recover bits
        have bits : s.st = .searchPreamble ∨ s.st.inPacket = true →
            (if e.t < s.cur then Host.Outcome.next (inputFault e.t (consume e rest (clearEvents s)))
              else match s.bph with
                | .boundary => boundaryEdge e.t (consume e rest (clearEvents s))
                | .mid => midEdge e.t (consume e rest (clearEvents s))) =
              Host.Outcome.next t → StepCase s t := by
          intro hs hb
          split at hb
          case isTrue hlt => exact .backward e rest he (.inr hs) hlt (by cases hb; rfl)
          case isFalse hle =>
            have hle' : s.cur ≤ e.t := BitVec.not_lt.mp hle
            have fin : ∀ b t0, closes s e b t0 →
                deliverBit b t0 (afterBit s e rest b t0) = .next t → StepCase s t := by
              intro b t0 hc hd
              rcases deliverBit_eq_next b t0 (afterBit s e rest b t0) t hs hd with ⟨h1, h2⟩ | ⟨h1, h2, h3⟩ | ⟨h1, h2, h3⟩
              · exact .searchBit e rest b t0 he h1 hle' hc h2
              · exact .symbolBit e rest b t0 he h1 hle' hc h2 h3
              · exact .symbol e rest b t0 he h1 hle' hc h2 h3
            split at hb
            case h_1 hph =>
              change (if oneWindow s.cfg (interval s.cur e.t) = true then
                  Host.Outcome.next (enterMid e.t
                    (signalIf (glitchFloor s.cfg (interval s.cur e.t)) .glitch e.t
                      (consume e rest (clearEvents s))))
                else deliverBit false s.cur (closeBit false s.cur e.t
                    (signalIf (glitchFloor s.cfg (interval s.cur e.t)) .glitch e.t
                      (consume e rest (clearEvents s))))) = Host.Outcome.next t at hb
              by_cases hw : oneWindow s.cfg (interval s.cur e.t) = true
              · rw [if_pos hw] at hb
                exact .midBit e rest he hs hle' hph hw (by cases hb; rfl)
              · rw [if_neg hw, closeBit_false_eq s e rest hph] at hb
                exact fin false s.cur (.inr ⟨hph, by simpa using hw, rfl, rfl⟩) hb
            case h_2 hph =>
              change deliverBit true s.bitT0 (closeBit true s.bitT0 e.t
                { consume e rest (clearEvents s) with bph := .boundary }) = Host.Outcome.next t at hb
              rw [closeBit_true_eq s e rest hph] at hb
              exact fin true s.bitT0 (.inl ⟨hph, rfl, rfl⟩) hb
        unfold takeEdge at h
        simp only [consume_st, clearEvents_st, consume_cur, clearEvents_cur, consume_bph,
          clearEvents_bph] at h
        cases hst : s.st <;> simp only [hst] at h
        case halted => exact absurd hst hq'.1
        case faulted => exact absurd hst hq'.2
        case resetWait => exact .position e rest he hst (by cases h; rfl)
        case done =>
          change (if e.t < s.cur then
              Host.Outcome.next (inputFault e.t (consume e rest (clearEvents s)))
            else .next (skipTrailing e.t (consume e rest (clearEvents s)))) = .next t at h
          split at h
          case isTrue hlt => exact .backward e rest he (.inl hst) hlt (by cases h; rfl)
          case isFalse hle =>
            exact .trailing e rest he hst (BitVec.not_lt.mp hle) (by cases h; rfl)
        all_goals exact bits (by simp [hst, St.inPacket]) h

end Sys2Proof.Machine
end

