-- ==== Sys2Proof/Laws/Symbol.lean ====
section
/-! SUPPORT. What a completed symbol can do, said once: if it answers a next state, one of these cases
holds. -/

namespace Sys2Proof.Machine

/-- The state once the symbol in hand has been taken as data (R153). -/
abbrev afterData (s : State) : State := dataSymbol (dec5 s.cfg s.symSr) s

/-- Every way a completed symbol answers a next state (R150, R135 to R138, R195, R197, R205, R206). -/
inductive SymbolCase (s t : State) : Prop where
  /-- No packet is in progress (log 9). -/
  | idle (hs : s.st.inPacket = false) (ht : t = s)
  /-- One of the first three symbols of an ordered set (R135). -/
  | sopStored (hs : s.st = .awaitSop) (hk : s.unitSym.toNat < 3)
      (ht : t = { s with sopRx := s.sopRx.set s.unitSym.toNat s.symSr, unitSym := s.unitSym + 1#3 })
  /-- The fourth symbol of an accepted ordered set (R137). -/
  | sopAccepted (v : Fin 5) (hs : s.st = .awaitSop) (hk : s.unitSym = 3#3)
      (hv : sopClassify s.cfg (s.sopRx.set 3 s.symSr) = some v)
      (ht : t = sopFound (BitVec.ofNat 3 v)
        { s with sopRx := s.sopRx.set 3 s.symSr, unitSym := 4#3 })
  /-- The fourth symbol of a rejected ordered set (R138). -/
  | sopRejected (hs : s.st = .awaitSop) (hk : s.unitSym = 3#3)
      (hv : sopClassify s.cfg (s.sopRx.set 3 s.symSr) = none)
      (ht : t = sopError { s with sopRx := s.sopRx.set 3 s.symSr, unitSym := 4#3 })
  /-- A data symbol that is not the last of its unit (R153). -/
  | data (hs : s.st.inData = true) (hl : lastOfUnit s = false) (ht : t = afterData s)
  /-- The last symbol of the Header (R195). -/
  | header (hs : s.st = .awaitHeader) (hk : s.unitSym = 3#3)
      (ht : t = headerDone (kind s.cfg ((afterData s).acc.truncate 16) == .srcCap)
        ((afterData s).acc.truncate 16) (afterData s))
  /-- The last symbol of a Data Object (R197). -/
  | object (hs : s.st = .readPayload) (hk : s.unitSym = 7#3)
      (ht : objectDone (objectPart (kind s.cfg s.hdr)) (afterData s) = .next t)
  /-- The last symbol of the CRC trailer (R205). -/
  | trailer (hs : s.st = .awaitCrc) (hk : s.unitSym = 7#3) (ht : t = crcDone (afterData s))
  /-- The EOP position (R206). -/
  | eop (hs : s.st = .awaitEop) (ht : t = eopSymbol s.symSr s)

/-! ### What a data symbol leaves (R153) -/

/-- A data symbol field by field: the first of a byte is kept, the second completes the byte (R153). -/
theorem dataSymbol_eq (n : Byte) (s : State) :
    dataSymbol n s =
      { s with
        unitSym := s.unitSym + 1#3
        nibLo := if s.unitSym.getLsbD 0 then s.nibLo else n
        byteStart := if s.unitSym.getLsbD 0 then s.byteStart else s.symStart
        acc := if s.unitSym.getLsbD 0 then
          s.acc ||| bytePlace (byteOf s.nibLo n) (s.unitSym.toNat / 2) else s.acc
        frames := s.frames ++ (if s.unitSym.getLsbD 0 && s.cfg.emitByteFrames then
          [⟨.byte, (byteOf s.nibLo n).zeroExtend 64, 0#64, s.byteStart, s.cur⟩] else [])
        ev := if n == s.cfg.invalidNibble then s.ev.assert .symInvalid else s.ev
        trace := s.trace ++ (if n == s.cfg.invalidNibble then [⟨.symInvalid, s.cur⟩] else []) } := by
  unfold dataSymbol
  cases hb : n == s.cfg.invalidNibble <;> cases hu : s.unitSym.getLsbD 0 <;>
    cases hc : s.cfg.emitByteFrames <;>
    simp only [signalIf, signal, byteDone, emit, hu, hc, if_true, if_false, Bool.false_eq_true,
      Bool.and_true, Bool.and_false, List.append_nil]

@[simp] theorem dataSymbol_st (n : Byte) (s : State) : (dataSymbol n s).st = s.st := by
  rw [dataSymbol_eq]

@[simp] theorem dataSymbol_cur (n : Byte) (s : State) : (dataSymbol n s).cur = s.cur := by
  rw [dataSymbol_eq]

@[simp] theorem dataSymbol_bph (n : Byte) (s : State) : (dataSymbol n s).bph = s.bph := by
  rw [dataSymbol_eq]

@[simp] theorem dataSymbol_bitT0 (n : Byte) (s : State) : (dataSymbol n s).bitT0 = s.bitT0 := by
  rw [dataSymbol_eq]

@[simp] theorem dataSymbol_preCnt (n : Byte) (s : State) : (dataSymbol n s).preCnt = s.preCnt := by
  rw [dataSymbol_eq]

@[simp] theorem dataSymbol_preExp (n : Byte) (s : State) : (dataSymbol n s).preExp = s.preExp := by
  rw [dataSymbol_eq]

@[simp] theorem dataSymbol_preStart (n : Byte) (s : State) : (dataSymbol n s).preStart = s.preStart := by
  rw [dataSymbol_eq]

@[simp] theorem dataSymbol_sopRx (n : Byte) (s : State) : (dataSymbol n s).sopRx = s.sopRx := by
  rw [dataSymbol_eq]

@[simp] theorem dataSymbol_symSr (n : Byte) (s : State) : (dataSymbol n s).symSr = s.symSr := by
  rw [dataSymbol_eq]

@[simp] theorem dataSymbol_symCnt (n : Byte) (s : State) : (dataSymbol n s).symCnt = s.symCnt := by
  rw [dataSymbol_eq]

@[simp] theorem dataSymbol_symStart (n : Byte) (s : State) : (dataSymbol n s).symStart = s.symStart := by
  rw [dataSymbol_eq]

@[simp] theorem dataSymbol_unitStart (n : Byte) (s : State) : (dataSymbol n s).unitStart = s.unitStart := by
  rw [dataSymbol_eq]

@[simp] theorem dataSymbol_hdr (n : Byte) (s : State) : (dataSymbol n s).hdr = s.hdr := by
  rw [dataSymbol_eq]

@[simp] theorem dataSymbol_sopType (n : Byte) (s : State) : (dataSymbol n s).sopType = s.sopType := by
  rw [dataSymbol_eq]

@[simp] theorem dataSymbol_pdoList (n : Byte) (s : State) : (dataSymbol n s).pdoList = s.pdoList := by
  rw [dataSymbol_eq]

@[simp] theorem dataSymbol_pdoCount (n : Byte) (s : State) : (dataSymbol n s).pdoCount = s.pdoCount := by
  rw [dataSymbol_eq]

@[simp] theorem dataSymbol_remaining (n : Byte) (s : State) : (dataSymbol n s).remaining = s.remaining := by
  rw [dataSymbol_eq]

@[simp] theorem dataSymbol_objIndex (n : Byte) (s : State) : (dataSymbol n s).objIndex = s.objIndex := by
  rw [dataSymbol_eq]

@[simp] theorem dataSymbol_crc (n : Byte) (s : State) : (dataSymbol n s).crc = s.crc := by
  rw [dataSymbol_eq]

@[simp] theorem dataSymbol_cfg (n : Byte) (s : State) : (dataSymbol n s).cfg = s.cfg := by
  rw [dataSymbol_eq]

@[simp] theorem dataSymbol_stopReq (n : Byte) (s : State) : (dataSymbol n s).stopReq = s.stopReq := by
  rw [dataSymbol_eq]

@[simp] theorem dataSymbol_resetReq (n : Byte) (s : State) : (dataSymbol n s).resetReq = s.resetReq := by
  rw [dataSymbol_eq]

@[simp] theorem dataSymbol_input (n : Byte) (s : State) : (dataSymbol n s).input = s.input := by
  rw [dataSymbol_eq]

@[simp] theorem dataSymbol_markers (n : Byte) (s : State) : (dataSymbol n s).markers = s.markers := by
  rw [dataSymbol_eq]

@[simp] theorem dataSymbol_unitSym (n : Byte) (s : State) :
    (dataSymbol n s).unitSym = s.unitSym + 1#3 := by
  rw [dataSymbol_eq]

/-- A symbol that answers a next state is in one of the cases. -/
theorem runSymbol_cases (s t : State) (h : runSymbol s = .next t) : SymbolCase s t := by
  unfold runSymbol at h
  rw [exec_decodeSym, andThen_eq_next_iff] at h
  obtain ⟨u, hu, h⟩ := h
  unfold symbolMeaning at hu
  have idle : s.st.inPacket = false → u = s → SymbolCase s t := by
    intro hp hus
    have hl : lastOfUnit s = false := by
      revert hp; cases hq : s.st <;> simp [lastOfUnit, unitSyms, hq, St.inPacket]
    rw [hl] at h
    cases h
    exact .idle hp hus
  cases hs : s.st <;> simp only [hs] at hu
  case awaitSop =>
    obtain ⟨hk, rfl⟩ := sopSymbol_eq_next _ _ _ hu
    by_cases h3 : s.unitSym = 3#3
    · have hl : lastOfUnit s = true := by simp [lastOfUnit, unitSyms, hs, h3]
      simp only [hl, if_true] at h
      have he : ({ s with sopRx := s.sopRx.set s.unitSym.toNat s.symSr hk
                          unitSym := s.unitSym + 1#3 } : State) =
          { s with sopRx := s.sopRx.set 3 s.symSr, unitSym := 4#3 } := by simp [h3]
      rw [he, runUnit_awaitSop
        { s with sopRx := s.sopRx.set 3 s.symSr, unitSym := 4#3 } hs] at h
      cases hv : sopClassify s.cfg (s.sopRx.set 3 s.symSr) with
      | none => simp only [hv] at h; exact .sopRejected hs h3 hv (by cases h; rfl)
      | some v => simp only [hv] at h; exact .sopAccepted v hs h3 hv (by cases h; rfl)
    · have h3' : s.unitSym.toNat ≠ 3 := fun e => h3 (BitVec.eq_of_toNat_eq e)
      have hl : lastOfUnit s = false := by
        simp only [lastOfUnit, unitSyms, hs, beq_eq_false_iff_ne, ne_eq, Option.some.injEq]
        omega
      rw [hl] at h
      exact .sopStored hs (by omega) (by cases h; rfl)
  case awaitHeader =>
    cases hu
    cases hl : lastOfUnit s <;> rw [hl] at h
    · exact .data (by simp [hs, St.inData]) hl (by cases h; rfl)
    · have hk : s.unitSym = 3#3 := by
        simp only [lastOfUnit, unitSyms, hs, beq_iff_eq, Option.some.injEq] at hl
        exact BitVec.eq_of_toNat_eq (by show s.unitSym.toNat = 3; omega)
      simp only [if_true] at h
      rw [runUnit_awaitHeader _ (by simpa using hs), dataSymbol_cfg] at h
      exact .header hs hk (by cases h; rfl)
  case readPayload =>
    cases hu
    cases hl : lastOfUnit s <;> rw [hl] at h
    · exact .data (by simp [hs, St.inData]) hl (by cases h; rfl)
    · have hk : s.unitSym = 7#3 := by
        simp only [lastOfUnit, unitSyms, hs, beq_iff_eq, Option.some.injEq] at hl
        exact BitVec.eq_of_toNat_eq (by show s.unitSym.toNat = 7; omega)
      simp only [if_true] at h
      rw [runUnit_readPayload _ (by simpa using hs), dataSymbol_cfg, dataSymbol_hdr] at h
      exact .object hs hk h
  case awaitCrc =>
    cases hu
    cases hl : lastOfUnit s <;> rw [hl] at h
    · exact .data (by simp [hs, St.inData]) hl (by cases h; rfl)
    · have hk : s.unitSym = 7#3 := by
        simp only [lastOfUnit, unitSyms, hs, beq_iff_eq, Option.some.injEq] at hl
        exact BitVec.eq_of_toNat_eq (by show s.unitSym.toNat = 7; omega)
      simp only [if_true] at h
      rw [runUnit_awaitCrc _ (by simpa using hs)] at h
      exact .trailer hs hk (by cases h; rfl)
  case awaitEop =>
    cases hu
    have hl : lastOfUnit s = false := by simp [lastOfUnit, unitSyms, hs]
    rw [hl] at h
    exact .eop hs (by cases h; rfl)
  all_goals exact idle (by simp [hs, St.inPacket]) (by cases hu; rfl)

end Sys2Proof.Machine
end

