-- ==== Sys2Proof/Tests/Slice0.lean ====
section
/-! SUPPORT. Tests on fixed values: expected results are the spec's tables and the vectors of
95_test_vectors.md (sections named §), or a hand calculation from the rule named. The last part holds one
witness for each statement that has hypotheses. -/

namespace Sys2Proof.Tests

open Sys2Proof Sys2Proof.Machine

/-! ### WellFormed: each check refuses an ill-formed term (R196, the Headers of §2.6) -/

theorem test_wf_control_refuses_objects : Instr.wf Cfg.c0 (.control 0x1082#16) = false := by decide
theorem test_wf_sourceCapabilities_refuses_ndo_0 :
    Instr.wf Cfg.c0 (.sourceCapabilities 0x0041#16) = false := by decide
theorem test_wf_request_refuses_type_3 : Instr.wf Cfg.c0 (.request 0x1043#16) = false := by decide
theorem test_wf_vendorDefined_refuses_type_31 :
    Instr.wf Cfg.c0 (.vendorDefined 0x101F#16) = false := by decide
theorem test_wf_otherData_refuses_source_caps :
    Instr.wf Cfg.c0 (.otherData 0x9161#16) = false := by decide
theorem test_wf_width_4_moves_a_header_to_another_class :
    Instr.wf { Cfg.c0 with msgTypeWidth := 4 } (.sourceCapabilities 0x1011#16) = true ∧
    Instr.wf Cfg.c0 (.sourceCapabilities 0x1011#16) = false := by decide

/-! ### Decoding: words written out from the wire-order columns of R82, R83 and R84 -/

/-- Five bits in order of arrival as a symbol (R81). -/
def wire (b0 b1 b2 b3 b4 : Nat) : Sym := BitVec.ofNat 5 (b0 + 2 * b1 + 4 * b2 + 8 * b3 + 16 * b4)

theorem test_decode_data_symbols :
    decodeSym (wire 0 1 1 1 1) = .d0 ∧ decodeSym (wire 1 0 0 1 0) = .d1 ∧
    decodeSym (wire 0 0 1 0 1) = .d2 ∧ decodeSym (wire 1 0 1 0 1) = .d3 ∧
    decodeSym (wire 0 1 0 1 0) = .d4 ∧ decodeSym (wire 1 1 0 1 0) = .d5 ∧
    decodeSym (wire 0 1 1 1 0) = .d6 ∧ decodeSym (wire 1 1 1 1 0) = .d7 ∧
    decodeSym (wire 0 1 0 0 1) = .d8 ∧ decodeSym (wire 1 1 0 0 1) = .d9 ∧
    decodeSym (wire 0 1 1 0 1) = .dA ∧ decodeSym (wire 1 1 1 0 1) = .dB ∧
    decodeSym (wire 0 1 0 1 1) = .dC ∧ decodeSym (wire 1 1 0 1 1) = .dD ∧
    decodeSym (wire 0 0 1 1 1) = .dE ∧ decodeSym (wire 1 0 1 1 1) = .dF := by decide

theorem test_decode_k_codes :
    decodeSym (wire 0 0 0 1 1) = .sync1 ∧ decodeSym (wire 1 0 0 0 1) = .sync2 ∧
    decodeSym (wire 0 1 1 0 0) = .sync3 ∧ decodeSym (wire 1 1 1 0 0) = .rst1 ∧
    decodeSym (wire 1 0 0 1 1) = .rst2 ∧ decodeSym (wire 1 0 1 1 0) = .eop := by decide

theorem test_decode_invalid_symbols :
    decodeSym (wire 0 0 0 0 0) = .inv00 ∧ decodeSym (wire 1 0 0 0 0) = .inv01 ∧
    decodeSym (wire 0 1 0 0 0) = .inv02 ∧ decodeSym (wire 1 1 0 0 0) = .inv03 ∧
    decodeSym (wire 0 0 1 0 0) = .inv04 ∧ decodeSym (wire 1 0 1 0 0) = .inv05 ∧
    decodeSym (wire 0 0 0 1 0) = .inv08 ∧ decodeSym (wire 0 0 1 1 0) = .inv0C ∧
    decodeSym (wire 0 0 0 0 1) = .inv10 ∧ decodeSym (wire 1 1 1 1 1) = .inv1F := by decide

/-- R85: no value is both a data symbol and a K-code; 16 and 6 of the 32 leave 10 invalid. -/
theorem test_symbol_classes_disjoint :
    ∀ x : Sym, ((nibbleOf x).isSome && kCodes.contains x) = false := by decide
theorem test_symbol_class_sizes :
    ((List.finRange 32).countP fun x => (nibbleOf (BitVec.ofFin x)).isSome) = 16 ∧
    ((List.finRange 32).countP fun x => kCodes.contains (BitVec.ofFin x)) = 6 := by decide

/-- The exact ordered sets of R88, from their four K-codes. -/
theorem test_decode_exact_sets :
    decode Cfg.c0 (.ordset20 0x8E318#20) = .ok .sop ∧
    decode Cfg.c0 (.ordset20 0x31B18#20) = .ok .sopPrime ∧
    decode Cfg.c0 (.ordset20 0x360D8#20) = .ok .sopDPrime ∧
    decode Cfg.c0 (.ordset20 0x36738#20) = .ok .sopPrimeDebug ∧
    decode Cfg.c0 (.ordset20 0x89B38#20) = .ok .sopDPrimeDebug := by decide

/-- The packed words of the table are the K-codes of the table (R86, R88). -/
theorem test_packed_sets :
    ∀ v : Fin 5, encode (variantInstr v) = .ordset20 (packSet (sopPattern v)) := by decide

/-- The rows of §2.3. -/
theorem test_classify_corrupted_sets :
    sopClassify Cfg.c0 #v[kRst1, kSync1, kSync1, kSync2] = some 0 ∧
    sopClassify Cfg.c0 #v[kSync2, kSync1, kSync1, kSync2] = some 0 ∧
    sopClassify Cfg.c0 #v[kSync1, kRst1, kSync1, kSync2] = some 0 ∧
    sopClassify Cfg.c0 #v[kSync1, kSync1, kEop, kSync2] = some 0 ∧
    sopClassify Cfg.c0 #v[kSync1, kSync1, kSync1, kRst1] = some 0 ∧
    sopClassify Cfg.c0 #v[kSync1, kSync1, kSync1, kSync3] = some 0 ∧
    sopClassify Cfg.c0 #v[kSync1, kSync1, kSync3, kSync2] = some 0 ∧
    sopClassify Cfg.c0 #v[kSync1, kRst2, kSync1, kSync2] = some 0 ∧
    sopClassify Cfg.c0 #v[kSync1, kSync3, kSync1, kSync2] = some 0 := by decide
theorem test_classify_two_corruptions :
    sopClassify Cfg.c0 #v[kSync1, kSync1, kRst1, kRst1] = none ∧
    sopClassify Cfg.c0 #v[kRst1, kRst1, kSync1, kSync2] = none ∧
    sopClassify Cfg.c0 #v[kSync1, kSync3, kSync3, kSync2] = some 4 ∧
    sopClassify Cfg.c0 #v[kSync1, kRst2, kRst2, kSync2] = some 3 ∧
    sopClassify Cfg.c0 #v[kSync1, kSync3, kSync3, kSync3] = some 1 ∧
    sopClassify Cfg.c0 #v[0x1E#5, 0x1E#5, 0x1E#5, 0x1E#5] = none := by decide

/-- With a threshold of 4 (P6) only an exact set is a variant's. -/
theorem test_classify_at_threshold_4 :
    sopClassify { Cfg.c0 with sopMatchThreshold := 4 } #v[kSync2, kSync1, kSync1, kSync2] = none ∧
    sopClassify { Cfg.c0 with sopMatchThreshold := 4 } #v[kSync1, kSync1, kSync1, kSync2] = some 0 := by
  decide

/-- A set no variant matches is rejected by name. -/
theorem test_decode_rejects_a_set :
    decode Cfg.c0 (.ordset20 (packSet #v[kSync1, kSync1, kRst1, kRst1])) = .error .noVariant := by
  decide

/-- The Headers of §2.6 at width 5. -/
theorem test_decode_headers :
    decodeHdr Cfg.c0 0x01A5#16 = .control 0x01A5#16 ∧ decodeHdr Cfg.c0 0x0041#16 = .control 0x0041#16 ∧
    decodeHdr Cfg.c0 0x13A1#16 = .sourceCapabilities 0x13A1#16 ∧
    decodeHdr Cfg.c0 0x1082#16 = .request 0x1082#16 ∧
    decodeHdr Cfg.c0 0x218F#16 = .vendorDefined 0x218F#16 ∧
    decodeHdr Cfg.c0 0x1043#16 = .otherData 0x1043#16 ∧
    decodeHdr Cfg.c0 0x1011#16 = .otherData 0x1011#16 ∧
    decodeHdr Cfg.c0 0x101F#16 = .otherData 0x101F#16 ∧
    decodeHdr Cfg.c0 0x9161#16 = .sourceCapabilities 0x9161#16 ∧
    decodeHdr Cfg.c0 0x7000#16 = .otherData 0x7000#16 := by decide

/-- The Headers of §2.6 whose class the width 4 changes. -/
theorem test_decode_headers_at_width_4 :
    decodeHdr { Cfg.c0 with msgTypeWidth := 4 } 0x1011#16 = .sourceCapabilities 0x1011#16 ∧
    decodeHdr { Cfg.c0 with msgTypeWidth := 4 } 0x101F#16 = .vendorDefined 0x101F#16 := by decide

/-- Table words (log 13): one and two bytes of a symbol row with its "edges" bit, a word too long. -/
theorem test_table_words :
    decodeTableWord 8 0x29 = none ∧ decodeTableWord 8 0x89 = some .d1 ∧
    decodeTableWord 16 0x021E = some .d0 ∧ decodeTableWord 16 0x041F = some .inv1F ∧
    decodeTableWord 24 0x108E318 = none ∧ decodeTableWord 32 0 = none := by decide

/-! ### Codec and CRC -/

/-- `DEC5` of a data symbol, a K-code and an invalid symbol (§2.2). -/
theorem test_dec5 :
    dec5 Cfg.c0 0x16#5 = 0x0A#8 ∧ dec5 Cfg.c0 0x0D#5 = 0xFF#8 ∧ dec5 Cfg.c0 0x1F#5 = 0xFF#8 := by
  decide

/-- The bytes of §2.2's table, as `byteOf` of the two decoded values. -/
theorem test_bytes :
    byteOf (dec5 Cfg.c0 0x15#5) (dec5 Cfg.c0 0x09#5) = 0x13#8 ∧
    byteOf (dec5 Cfg.c0 0x1D#5) (dec5 Cfg.c0 0x1D#5) = 0xFF#8 ∧
    byteOf (dec5 Cfg.c0 0x00#5) (dec5 Cfg.c0 0x16#5) = 0xFF#8 ∧
    byteOf (dec5 Cfg.c0 0x0B#5) (dec5 Cfg.c0 0x07#5) = 0xF5#8 ∧
    byteOf (dec5 Cfg.c0 0x09#5) (dec5 Cfg.c0 0x18#5) = 0xF1#8 := by decide

/-- The check value of R175. -/
theorem test_crc_check_value :
    crcUpdate 0x04C11DB7#32 0#32 [0x31#8, 0x32#8, 0x33#8, 0x34#8, 0x35#8, 0x36#8, 0x37#8, 0x38#8, 0x39#8] =
      0xCBF43926#32 := by decide +kernel

/-- Packet CRCs of §2.5. -/
theorem test_crc_packets :
    crcUpdate 0x04C11DB7#32 0#32 (coveredBytes 0x01A5#16 []) = 0xE5AE6AC5#32 ∧
    crcUpdate 0x04C11DB7#32 0#32 (coveredBytes 0x13A1#16 [0x0001912C#32]) = 0x4BEC7DBA#32 ∧
    crcUpdate 0x04C11DB7#32 0#32 (coveredBytes 0x1082#16 [0x1004B12C#32]) = 0xD5F9D233#32 ∧
    crcUpdate 0x04C11DB7#32 0#32 (coveredBytes 0x218F#16 [0xFF008001#32, 0x12345678#32]) = 0x61FFD934#32 := by
  decide +kernel

/-- `RPOLY` (R171). -/
theorem test_rpoly : bitReverse32 0x04C11DB7#32 = 0xEDB88320#32 := by decide

/-- Another polynomial (P15): the check value of CRC-32C, from general knowledge. -/
theorem test_crc_of_another_polynomial :
    crcUpdate 0x1EDC6F41#32 0#32
        [0x31#8, 0x32#8, 0x33#8, 0x34#8, 0x35#8, 0x36#8, 0x37#8, 0x38#8, 0x39#8] = 0xE3069283#32 := by
  decide +kernel

/-! ### Intervals (§2.1) -/

theorem test_window_c0 :
    (List.range 15).map (oneWindow Cfg.c0) =
      [false, false, false, false, false, false, false, false, true, true, true, true, true, false,
       false] := by decide
theorem test_glitch_c0 :
    (List.range 7).map (glitchFloor Cfg.c0) = [true, true, true, true, true, false, false] := by decide
theorem test_window_and_glitch_at_other_ratios :
    (List.range 7).map (oneWindow (Cfg.withRates 300000 2400000)) =
      [false, false, false, true, true, true, false] ∧
    (List.range 5).map (oneWindow (Cfg.withRates 300000 1350000)) = [false, false, true, false, false] ∧
    (List.range 5).map (oneWindow (Cfg.withRates 300000 1200000)) = [false, false, true, false, false] ∧
    (List.range 3).map (glitchFloor (Cfg.withRates 300000 2400000)) = [true, true, false] ∧
    (List.range 3).map (glitchFloor (Cfg.withRates 300000 1350000)) = [true, true, false] ∧
    (List.range 3).map (glitchFloor (Cfg.withRates 300000 1200000)) = [true, false, false] := by decide

/-- R116: the sum is exact, also at the top of the sample range. -/
theorem test_midpoint_is_exact :
    midpoint 1000#64 1020#64 = 1010#64 ∧
    midpoint 0xFFFFFFFFFFFFFFFE#64 0xFFFFFFFFFFFFFFFF#64 = 0xFFFFFFFFFFFFFFFE#64 := by decide

/-! ### One step -/

/-- A state in `st` at sample 1000, no edge presented. -/
def at1000 (st : St) : State := { State.reset with st := st, cur := 1000#64 }

/-- The same state with one edge presented. -/
def withEdge (t : Nat) (s : State) : State := { s with input := [⟨BitVec.ofNat 64 t, true, false⟩] }

/-- The same with `stop_req` asserted in the edge's step. -/
def withStop (t : Nat) (s : State) : State := { s with input := [⟨BitVec.ofNat 64 t, true, true⟩] }

/-- A property of the next state, false where there is none. -/
def nextIs (r : Result) (p : State → Bool) : Bool :=
  match r with
  | .next t => p t
  | .fault _ => false
  | .refused _ => false

/-- §2.1: boundary 1000, edge 1020: a zero, marker (1010, 0), no event. -/
theorem test_step_zero :
    nextIs (step (withEdge 1020 (at1000 .searchPreamble)))
      (fun t => t.cur == 1020#64 && t.markers == [⟨1010#64, false⟩] && t.trace.isEmpty) := by decide
/-- §2.1: edge 1010: a mid-bit transition, no bit yet. -/
theorem test_step_mid :
    nextIs (step (withEdge 1010 (at1000 .searchPreamble)))
      (fun t => t.bph == .mid && t.bitT0 == 1000#64 && t.markers.isEmpty) := by decide
/-- §2.1: mid at 1010, edge 1500: a one, marker (1250, 1). -/
theorem test_step_one :
    nextIs (step (withEdge 1500
        { at1000 .searchPreamble with bph := .mid, bitT0 := 1000#64, cur := 1010#64 }))
      (fun t => t.bph == .boundary && t.markers == [⟨1250#64, true⟩]) := by decide
/-- §2.1: edge 1002: a zero with `EV_GLITCH@1002`, and the run restarts. -/
theorem test_step_glitch :
    nextIs (step (withEdge 1002 (at1000 .searchPreamble)))
      (fun t => t.trace == [⟨.glitch, 1002#64⟩] && t.preStart == 1002#64 &&
        t.markers == [⟨1001#64, false⟩]) := by decide
/-- §2.10: an edge that goes backwards. -/
theorem test_step_input_fault :
    nextIs (step (withEdge 999 { at1000 .awaitHeader with bph := .mid }))
      (fun t => t.st == .faulted && t.cur == 1000#64 && t.bph == .mid &&
        t.trace == [⟨.inputFault, 999#64⟩]) := by decide
/-- §2.10: the first edge only positions. -/
theorem test_step_position :
    nextIs (step (withEdge 500 State.reset))
      (fun t => t.st == .searchPreamble && t.cur == 500#64 && t.preStart == 500#64) := by decide
/-- §2.11: `stop_req` in the positioning step. -/
theorem test_step_position_halts :
    nextIs (step (withStop 1000 State.reset)) (fun t => t.st == .halted && t.cur == 1000#64) := by
  decide
/-- §2.11: `stop_req` is not sampled inside a packet. -/
theorem test_step_stop_ignored_in_packet :
    nextIs (step (withStop 1020 (at1000 .awaitHeader)))
      (fun t => t.st == .awaitHeader && t.symCnt == 1#3) := by decide
/-- R207: the trailing edge is skipped whatever its distance. -/
theorem test_step_trailing :
    nextIs (step (withEdge 1010 (at1000 .done)))
      (fun t => t.st == .searchPreamble && t.cur == 1010#64 && t.markers.isEmpty) := by decide
/-- R132: the 63rd bit of a run. -/
theorem test_step_preamble_found :
    nextIs (step (withEdge 1020
        { at1000 .searchPreamble with preCnt := 62#6, preExp := false, preStart := 7#64 }))
      (fun t => t.st == .awaitSop && t.frames == [⟨.preamble, 1#64, 0#64, 7#64, 1020#64⟩] &&
        t.unitStart == 1020#64) := by decide
/-- P5: with a run of 2 the second bit completes it. -/
theorem test_step_preamble_found_at_another_run :
    nextIs (step (withEdge 1020
        { at1000 .searchPreamble with
          preCnt := 1#6, preExp := false, cfg := { Cfg.c0 with preambleRun := 2 } }))
      (fun t => t.st == .awaitSop) := by decide
/-- R138: two wrong symbols of an ordered set. -/
theorem test_step_sop_error :
    nextIs (step (withEdge 1020
        { at1000 .awaitSop with
          unitSym := 3#3, symCnt := 4#3, symSr := 0x07#5, unitStart := 600#64
          sopRx := #v[kSync1, kSync1, kRst1, 0#5] }))
      (fun t => t.st == .searchPreamble && t.preStart == 1020#64 && t.ev.sopError &&
        t.frames == [⟨.sopError, 0#64, 0#64, 600#64, 1020#64⟩]) := by decide
/-- R157(a): a Header whose fourth symbol is invalid has NDO 7; 0xF1A5 is OTHER. -/
theorem test_step_garbled_header :
    nextIs (step (withEdge 1020
        { at1000 .awaitHeader with
          unitSym := 3#3, symCnt := 4#3, symSr := 0x0F#5, bph := .mid, nibLo := 0x01#8
          acc := 0xA5#32 }))
      (fun t => t.hdr == 0xF1A5#16 && t.remaining == 7#3 && t.st == .readPayload &&
        t.ev.symInvalid) := by decide
/-- R198: a Source PDO completes in a step (P2's PDO). -/
theorem test_step_source_pdo :
    nextIs (step (withEdge 1020
        { at1000 .readPayload with
          hdr := 0x13A1#16, remaining := 1#3, unitSym := 7#3, symCnt := 4#3, symSr := 0x0E#5
          bph := .mid, acc := 0x0001912C#32 }))
      (fun t => t.pdoList[0] == 0x0001912C#32 && t.pdoCount == 1#3 && t.st == .awaitCrc) := by decide
/-- R205: a trailer that differs. -/
theorem test_step_crc_mismatch :
    nextIs (step (withEdge 1020
        { at1000 .awaitCrc with
          unitSym := 7#3, symCnt := 4#3, symSr := 0x0E#5, bph := .mid, crc := 1#32 }))
      (fun t => t.st == .awaitEop && t.ev.crcMismatch &&
        t.frames == [⟨.crc32, 0#64, 1#64, 0#64, 1020#64⟩]) := by decide
/-- §2.13: the configurations a reset admits and refuses. -/
theorem test_reset_configurations :
    Cfg.c0.admitted = true ∧ (Cfg.withRates 300000 1200000).admitted = true ∧
    (Cfg.withRates 300000 1199999).admitted = false ∧ (Cfg.withRates 0 6000000).admitted = false ∧
    ({ Cfg.c0 with msgTypeWidth := 4 } : Cfg).admitted = true ∧
    ({ Cfg.c0 with msgTypeWidth := 4, mtVendor := 16 } : Cfg).admitted = false ∧
    ({ Cfg.c0 with objPosLsb := 29 } : Cfg).admitted = false := by decide
/-- R300(c): a refused configuration. -/
theorem test_step_reset_refused :
    step { at1000 .halted with resetReq := some (Cfg.withRates 0 1) } = .refused .configuration := rfl
/-- R300: a reset in `FAULTED`, with an edge presented that stays presented. -/
theorem test_step_reset :
    nextIs (step { withEdge 5 (at1000 .faulted) with resetReq := some Cfg.c0 })
      (fun t => t == withEdge 5 State.reset) := by decide

/-- Log 14: one word of each format, placed and run by the next step. -/
theorem test_fetch_runs_a_data_symbol :
    nextIs (step (State.reset.withFetchWord 8 0x09)) (fun t => t.nibLo == 1#8 && t.unitSym == 1#3) := by
  decide
theorem test_fetch_runs_an_eop :
    nextIs (step (State.reset.withFetchWord 16 0x0D)) (fun t => t.st == .done) := by decide
theorem test_fetch_runs_an_ordered_set :
    nextIs (step (State.reset.withFetchWord 24 0x31B18))
      (fun t => t.st == .awaitHeader && t.sopType == 1#3) := by decide
theorem test_fetch_runs_a_header :
    nextIs (step (State.reset.withFetchWord 16 0x1082))
      (fun t => t.hdr == 0x1082#16 && t.st == .readPayload) := by decide

/-! ### Request resolution (§2.7) -/

/-- The list `[0x0001912C]`. -/
def oneEntry : State :=
  { at1000 .readPayload with pdoList := State.reset.pdoList.set 0 0x0001912C#32, pdoCount := 1#3 }

theorem test_resolve :
    (resolve 0x1004B12C#32 oneEntry).1 = 0x1912C#64 ∧ (resolve 0x0004B12C#32 oneEntry).1 = refSentinel ∧
    (resolve 0x2004B12C#32 oneEntry).1 = refSentinel ∧ (resolve 0xF004B12C#32 oneEntry).1 = refSentinel ∧
    (resolve 0x1004B12C#32 State.reset).1 = refSentinel := by decide

/-- Log 26: past a list depth (P13) of 1 nothing is stored, within it the entry is. -/
theorem test_list_depth :
    writePdo { Cfg.c0 with pdoListDepth := 1 } 1 5#32 State.reset.pdoList = State.reset.pdoList ∧
    (writePdo { Cfg.c0 with pdoListDepth := 1 } 0 5#32 State.reset.pdoList)[0] = 5#32 := by decide

/-- Log 24: a width of 0 (P12) reads as position 0. -/
theorem test_objPos_of_no_bits : objPos { Cfg.c0 with objPosWidth := 0 } 0xFFFFFFFF#32 = 0 := by decide

/-! ### Views (§2.8) -/

theorem test_view_fixed :
    (fixedSupply 0x0001912C).voltageMV = 5000 ∧ (fixedSupply 0x0001912C).maxCurrentMA = 3000 ∧
    (fixedSupply 0x2402D12C).dualRolePower = true ∧
    (fixedSupply 0x2402D12C).usbCommunicationsCapable = true ∧ pdoTag 0x2402D12C#32 = .fixed := by decide
theorem test_view_battery_and_variable :
    pdoView 0x5A41903C#32 = .battery ⟨21000, 5000, 15000⟩ ∧
    pdoView 0x8F0190C8#32 = .variableSupply ⟨12000, 5000, 2000⟩ := by decide
theorem test_view_augmented :
    pdoView 0xC0DC213C#32 = .sprPps ⟨false, 11000, 3300, 3000⟩ ∧
    pdoView 0xD230968C#32 = .eprAvs ⟨0, 28000, 15000, 140000⟩ ∧
    pdoView 0xE0000000#32 = .reserved 0xE0000000#32 := by decide
theorem test_view_requests :
    rdoView 0x1004B12C#64 0x1912C#64 = .fixed ⟨1, false, false, false, false, false⟩ false 3000 3000 ∧
    rdoView 0x4001F428#64 0xC0DC213C#64 = .sprPps ⟨4, false, false, false, false, false⟩ 5000 2000 ∧
    rdoView 0x5006403C#64 0xD230968C#64 = .eprAvs ⟨5, false, false, false, false, false⟩ 20000 3000 := by
  decide
theorem test_view_request_battery :
    rdoView 0x2000F03C#64 0x5A41903C#64 =
      .battery ⟨2, false, false, false, false, false⟩ false 15000 15000 := by decide
theorem test_view_header :
    headerView Cfg.c0 0x13A1#64 0#64 =
      ⟨false, 1, 1, .portPowerRole true, 2, .portDataRole true, 1⟩ := by decide
theorem test_view_vdm :
    vdmView 0xFF008001#64 = .structured 0xFF00 0 0 0 .req .discoverIdentity := by decide

/-! ### Witnesses: for each statement with hypotheses, values that meet them, clause by clause -/

/-- A packet state at sample 1000 with `k` symbols of the unit and `c` bits of the symbol received. -/
def inUnit (st : St) (k c : Nat) : State :=
  { at1000 st with unitSym := BitVec.ofNat 3 k, symCnt := BitVec.ofNat 3 c }

/-- The edge a bit period away. -/
def edge1020 : Edge := ⟨1020#64, true, false⟩

/-- The edge half a bit period away. -/
def edge1010 : Edge := ⟨1010#64, true, false⟩

/-- An edge before the cursor. -/
def edge999 : Edge := ⟨999#64, true, false⟩

/-- Edges presented. -/
def presented (es : List Edge) (s : State) : State := { s with input := es }

/-- A Request in its payload: object `k`, the RDO in the accumulator, `n` entries in the list. -/
def requestAt (k : Nat) (rdo : Word) (n : Nat) : State :=
  { at1000 .readPayload with
    hdr := 0x7082#16, remaining := BitVec.ofNat 3 (7 - k), objIndex := BitVec.ofNat 3 k, acc := rdo
    pdoCount := BitVec.ofNat 3 n }

/-- A Source Capabilities message in its payload, the last bit of an object's last symbol to come. -/
def sourceObject : State :=
  { inUnit .readPayload 7 4 with hdr := 0x13A1#16, remaining := 1#3, symSr := 0x0E#5, bph := .mid }

theorem witness_DecodeOfEncodeIsTheInstruction :
    3 ≤ Cfg.c0.sopMatchThreshold ∧ Cfg.c0.sopMatchThreshold ≤ 4 ∧
    Instr.wf Cfg.c0 .inv1F = true ∧ Instr.wf Cfg.c0 .sopDPrimeDebug = true ∧
    Instr.wf Cfg.c0 (.control 0x8FFF#16) = true ∧
    Instr.wf Cfg.c0 (.sourceCapabilities 0xFFE1#16) = true ∧
    Instr.wf Cfg.c0 (.request 0x1002#16) = true ∧
    Instr.wf Cfg.c0 (.vendorDefined 0x700F#16) = true ∧
    Instr.wf Cfg.c0 (.otherData 0x7000#16) = true := by decide

/-- The ordered set has exactly 3 equal symbols of variant 4, and 2 of each lower variant (§2.3). -/
theorem witness_DecodedInstructionEncodesItsWord :
    decode Cfg.c0 (.sym5 0x1F#5) = .ok .inv1F ∧
    decode Cfg.c0 (.hdr16 0xFFFF#16) = .ok (.otherData 0xFFFF#16) ∧
    decode Cfg.c0 (.ordset20 (packSet #v[kSync1, kSync3, kSync3, kSync2])) = .ok .sopDPrimeDebug ∧
    sopScore 4 (unpackSet (packSet #v[kSync1, kSync3, kSync3, kSync2])) = 3 := by decide

theorem witness_SopClassifyIsFirstVariantAtThreshold :
    sopScore 0 #v[kRst1, kSync1, kSync1, kSync2] = 3 ∧
    ∀ v : Fin 5, sopScore v #v[kSync1, kSync1, kRst1, kRst1] < 3 := by decide

theorem witness_OneWrongSopSymbolIsTolerated : Cfg.c0.sopMatchThreshold ≤ 3 := by decide

/-- One Header for each clause, at the ends of the count's range (1 and 7). -/
theorem witness_HeaderIsDecodedByItsClass :
    0x0FFF / 2 ^ 12 % 2 ^ 3 = 0 ∧ 0x8FFF / 2 ^ 12 % 2 ^ 3 = 0 ∧
    (0x1001 / 2 ^ 12 % 2 ^ 3 = 1 ∧ 0x1001 % 2 ^ Cfg.c0.msgTypeWidth = Cfg.c0.mtSourceCap) ∧
    (0x7002 / 2 ^ 12 % 2 ^ 3 = 7 ∧ 0x7002 % 2 ^ Cfg.c0.msgTypeWidth = Cfg.c0.mtRequest) ∧
    (0x100F / 2 ^ 12 % 2 ^ 3 = 1 ∧ 0x100F % 2 ^ Cfg.c0.msgTypeWidth = Cfg.c0.mtVendor) ∧
    (0x7000 / 2 ^ 12 % 2 ^ 3 = 7 ∧ 0x7000 % 2 ^ Cfg.c0.msgTypeWidth = 0) := by decide

theorem witness_CrcSeesEverySingleByteError :
    (0x04C11DB7#32 : Word).getLsbD 0 = true ∧ (0x00#8 : Byte) ≠ 0x80#8 := by decide

theorem witness_CrcEngineConstants : (0 : Nat) < 32 ∧ 31 < 32 := by decide

/-- Just below, at both ends of, and just above the window of C0, and around its glitch threshold. -/
theorem witness_IntervalPredicatesAreTheSpecs :
    Cfg.c0.window = windowSpec ∧ Cfg.c0.glitch = glitchSpec ∧
    oneWindow Cfg.c0 7 = false ∧ oneWindow Cfg.c0 8 = true ∧ oneWindow Cfg.c0 12 = true ∧
    oneWindow Cfg.c0 13 = false ∧ glitchFloor Cfg.c0 4 = true ∧ glitchFloor Cfg.c0 5 = false := by decide

/-- The first and the last symbol of an ordered set. -/
theorem witness_SymbolInSopPositionIsStored :
    ((.sync1, 0x18#5) : Instr × Sym) ∈ symbolRows ∧ (inUnit .awaitSop 0 0).st = .awaitSop ∧
    (inUnit .awaitSop 0 0).unitSym.toNat = (0 : Fin 4) ∧
    (inUnit .awaitSop 3 0).unitSym.toNat = (3 : Fin 4) := by decide

/-- A first and a second symbol of a byte, at the ends of a unit. -/
theorem witness_SymbolInDataPositionIsAssembled :
    ((.d0, 0x1E#5) : Instr × Sym) ∈ symbolRows ∧ ((.inv1F, 0x1F#5) : Instr × Sym) ∈ symbolRows ∧
    (inUnit .awaitHeader 0 0).st = .awaitHeader ∧ (inUnit .awaitHeader 0 0).unitSym.toNat % 2 = 0 ∧
    (inUnit .readPayload 7 0).st = .readPayload ∧ (inUnit .readPayload 7 0).unitSym.toNat % 2 = 1 ∧
    (inUnit .awaitCrc 6 0).st = .awaitCrc ∧ (inUnit .awaitCrc 6 0).unitSym.toNat % 2 = 0 := by decide

theorem witness_SymbolInEopPositionEndsThePacket :
    ((.eop, 0x0D#5) : Instr × Sym) ∈ symbolRows ∧ ((.inv0C, 0x0C#5) : Instr × Sym) ∈ symbolRows ∧
    (at1000 .awaitEop).st = .awaitEop ∧ (0x0C#5 : Sym) ≠ 0x0D#5 := by decide

theorem witness_SymbolOutsideAPacketWritesNothing :
    ((.rst1, 0x07#5) : Instr × Sym) ∈ symbolRows ∧ (at1000 .done).st.inPacket = false ∧
    (at1000 .searchPreamble).st.inPacket = false := by decide

theorem witness_SymbolIsAssembledLsbFirst : (inUnit .awaitSop 0 0).symCnt = 0#3 := by decide

theorem witness_DataSymbolsAssembleLittleEndian :
    (inUnit .awaitCrc 0 0).st.inData = true ∧ (inUnit .awaitCrc 0 0).unitSym = 0#3 ∧
    (inUnit .awaitCrc 0 0).acc = 0#32 := by decide

theorem witness_SopVariantOpensTheHeader :
    ((.sop, 0#3) : Instr × BitVec 3) ∈ variantRows ∧
    ((.sopDPrimeDebug, 4#3) : Instr × BitVec 3) ∈ variantRows := by decide

/-- A set with exactly 3 equal symbols of variant 3, a tie with 4, and one with no variant (§2.3). -/
theorem witness_OrderedSetRunsItsVariantOrRestarts :
    (at1000 .awaitSop).st = .awaitSop ∧ (at1000 .awaitSop).cfg.sopMatchThreshold = 3 ∧
    3 ≤ sopScore 3 #v[kSync1, kRst2, kRst2, kSync2] ∧
    (∀ u : Fin 5, u < 3 → sopScore u #v[kSync1, kRst2, kRst2, kSync2] < 3) ∧
    ∀ v : Fin 5, sopScore v #v[kSync1, kSync1, kRst1, kRst1] < 3 := by decide

theorem witness_HeaderCompletes :
    (inUnit .awaitHeader 4 0).st = .awaitHeader ∧ kind Cfg.c0 0x0FFF#16 = .control ∧
    kind Cfg.c0 0x1001#16 = .srcCap ∧ kind Cfg.c0 0x7002#16 = .request ∧
    kind Cfg.c0 0x100F#16 = .vdm ∧ kind Cfg.c0 0x7000#16 = .other := by decide

/-- The first and the last entry of the list, within its depth. -/
theorem witness_SourcePdoIsStored :
    (requestAt 0 0#32 0).st = .readPayload ∧ (requestAt 0 0#32 0).objIndex.toNat = (0 : Fin 7) ∧
    (requestAt 6 0#32 0).st = .readPayload ∧ (requestAt 6 0#32 0).objIndex.toNat = (6 : Fin 7) ∧
    6 < (requestAt 6 0#32 0).cfg.pdoListDepth := by
  decide

/-- Positions 1 of 1 and 7 of 7 resolve; 7 of 7 with a list depth of 6 has no entry; 0, one above the
length, and 15 do not resolve; a later object. -/
theorem witness_RequestIsResolved :
    (requestAt 0 0x1004B12C#32 1).st = .readPayload ∧ (requestAt 0 0x1004B12C#32 1).objIndex = 0#3 ∧
    objPos Cfg.c0 0x1004B12C#32 = (0 : Fin 7).val + 1 ∧ 1 ≤ (requestAt 0 0x1004B12C#32 1).pdoCount.toNat ∧
    objPos Cfg.c0 0x7004B12C#32 = (6 : Fin 7).val + 1 ∧
    7 ≤ (requestAt 0 0x7004B12C#32 7).pdoCount.toNat ∧ 7 ≤ Cfg.c0.pdoListDepth ∧
    ({ Cfg.c0 with pdoListDepth := 6 } : Cfg).pdoListDepth < 7 ∧
    objPos { Cfg.c0 with pdoListDepth := 6 } 0x7004B12C#32 = 7 ∧
    objPos Cfg.c0 0x0004B12C#32 = 0 ∧
    (requestAt 0 0x2004B12C#32 1).pdoCount.toNat < objPos Cfg.c0 0x2004B12C#32 ∧
    (requestAt 0 0xF004B12C#32 7).pdoCount.toNat < objPos Cfg.c0 0xF004B12C#32 ∧
    (requestAt 1 0x1004B12C#32 1).objIndex ≠ 0#3 := by decide

theorem witness_VdmObjectIsReported :
    (requestAt 0 0xFF008001#32 0).st = .readPayload ∧ (requestAt 0 0xFF008001#32 0).objIndex = 0#3 ∧
    (requestAt 1 0x12345678#32 0).st = .readPayload ∧
    (requestAt 1 0x12345678#32 0).objIndex ≠ 0#3 := by decide

theorem witness_OtherObjectIsReported : (requestAt 6 0#32 0).st = .readPayload := by decide

/-- A trailer that agrees and one that differs. -/
theorem witness_CrcTrailerIsCompared :
    (inUnit .awaitCrc 8 0).st = .awaitCrc ∧ (inUnit .awaitCrc 8 0).acc = (inUnit .awaitCrc 8 0).crc ∧
    ({ inUnit .awaitCrc 8 0 with acc := 1#32 } : State).acc ≠ (inUnit .awaitCrc 8 0).crc := by decide

/-- A fifth bit of value 0 and one of value 1. -/
theorem witness_StepRunsTheDecodedSymbol :
    (∃ s : State, edgeAt s edge1020 [] ∧ s.st.inPacket = true ∧ s.cur ≤ edge1020.t ∧ s.symCnt = 4#3 ∧
      closes s edge1020 false s.cur) ∧
    ∃ s : State, edgeAt s edge1010 [] ∧ s.st.inPacket = true ∧ s.cur ≤ edge1010.t ∧ s.symCnt = 4#3 ∧
      closes s edge1010 true s.bitT0 :=
  ⟨⟨presented [edge1020] (inUnit .awaitSop 0 4), ⟨rfl, rfl⟩, rfl, by decide, rfl,
      .inr ⟨rfl, by decide, rfl, rfl⟩⟩,
    ⟨presented [edge1010] { inUnit .awaitEop 0 4 with bph := .mid }, ⟨rfl, rfl⟩, rfl, by decide, rfl,
      .inl ⟨rfl, rfl, rfl⟩⟩⟩

theorem witness_UnitRunsTheDecodedHeader :
    (inUnit .awaitHeader 4 0).st = .awaitHeader ∧ (requestAt 0 0#32 0).st = .readPayload := by decide

/-- The first bit of a symbol, and the fourth. -/
theorem witness_StepPlacesASymbolBit :
    (∃ s : State, edgeAt s edge1020 [] ∧ s.st.inPacket = true ∧ s.cur ≤ edge1020.t ∧
      s.symCnt.toNat = 0 ∧ closes s edge1020 false s.cur) ∧
    ∃ s : State, edgeAt s edge1010 [] ∧ s.st.inPacket = true ∧ s.cur ≤ edge1010.t ∧
      s.symCnt.toNat = 3 ∧ closes s edge1010 true s.bitT0 :=
  ⟨⟨presented [edge1020] (inUnit .readPayload 0 0), ⟨rfl, rfl⟩, rfl, by decide, rfl,
      .inr ⟨rfl, by decide, rfl, rfl⟩⟩,
    ⟨presented [edge1010] { inUnit .awaitCrc 0 3 with bph := .mid }, ⟨rfl, rfl⟩, rfl, by decide, rfl,
      .inl ⟨rfl, rfl, rfl⟩⟩⟩

/-- Both ends of the window of C0: intervals of 8 and 12 samples. -/
theorem witness_StepTakesAMidBitEdge :
    (∃ s : State, edgeAt s ⟨1008#64, true, false⟩ [] ∧ s.st = .searchPreamble ∧ s.cur ≤ 1008#64 ∧
      s.bph = .boundary ∧ oneWindow s.cfg (interval s.cur 1008#64) = true) ∧
    ∃ s : State, edgeAt s ⟨1012#64, true, false⟩ [] ∧ s.st.inPacket = true ∧ s.cur ≤ 1012#64 ∧
      s.bph = .boundary ∧ oneWindow s.cfg (interval s.cur 1012#64) = true :=
  ⟨⟨presented [⟨1008#64, true, false⟩] (at1000 .searchPreamble), ⟨rfl, rfl⟩, rfl, by decide, rfl,
      by decide⟩,
    ⟨presented [⟨1012#64, true, false⟩] (at1000 .awaitSop), ⟨rfl, rfl⟩, rfl, by decide, rfl,
      by decide⟩⟩

/-- The 63rd bit, a counted bit (the 62nd), and a bit that breaks the run; `preambleRun` is 63. -/
theorem witness_StepSearchesThePreamble :
    (∃ s : State, edgeAt s edge1020 [] ∧ s.st = .searchPreamble ∧ s.cur ≤ edge1020.t ∧
      closes s edge1020 false s.cur ∧ false = s.preExp ∧
      (s.preCnt + 1#6).toNat = s.cfg.preambleRun) ∧
    (∃ s : State, edgeAt s edge1020 [] ∧ s.st = .searchPreamble ∧ s.cur ≤ edge1020.t ∧
      closes s edge1020 false s.cur ∧ false = s.preExp ∧
      (s.preCnt + 1#6).toNat ≠ s.cfg.preambleRun) ∧
    ∃ s : State, edgeAt s edge1020 [] ∧ s.st = .searchPreamble ∧ s.cur ≤ edge1020.t ∧
      closes s edge1020 false s.cur ∧ false ≠ s.preExp ∧ (0#6).toNat ≠ s.cfg.preambleRun :=
  ⟨⟨presented [edge1020] { at1000 .searchPreamble with preCnt := 62#6, preExp := false }, ⟨rfl, rfl⟩,
      rfl, by decide, .inr ⟨rfl, by decide, rfl, rfl⟩, rfl, rfl⟩,
    ⟨presented [edge1020] { at1000 .searchPreamble with preCnt := 61#6, preExp := false }, ⟨rfl, rfl⟩,
      rfl, by decide, .inr ⟨rfl, by decide, rfl, rfl⟩, rfl, by decide⟩,
    ⟨presented [edge1020] (at1000 .searchPreamble), ⟨rfl, rfl⟩,
      rfl, by decide, .inr ⟨rfl, by decide, rfl, rfl⟩, by decide, by decide⟩⟩

/-- The control invariant of a packet state with edges presented. -/
theorem controlInv_awaitSop (es : List Edge) : ControlInv (presented es (inUnit .awaitSop 0 0)) := by
  have h : ControlInv (inUnit .awaitSop 0 0) := by constructor <;> decide
  exact ⟨h.1, h.2, h.3, h.4, h.5, h.6, h.7, h.8, h.9⟩

/-- An error of a quarter of a half period, the greatest R121 admits, for C0: a state whose input is a one
with a first interval of 8 samples, which meets the first clause, and a state whose input is a zero of 18
samples, which meets the second. -/
theorem witness_BitsNearIdealAreRecovered :
    (∃ s : State, ControlInv s ∧ s.resetReq = none ∧ s.bph = .boundary ∧ s.st.inPacket = true ∧
      s.cfg.admitted = true ∧ s.cfg.window = windowSpec ∧ 4 * 1500000 ≤ s.cfg.sampleRate ∧
      2 * s.cfg.bitRate * 8 ≤ s.cfg.sampleRate + 1500000 ∧
      s.cfg.sampleRate ≤ 2 * s.cfg.bitRate * 8 + 1500000 ∧
      s.input = [⟨1008#64, true, false⟩, edge1020] ∧ s.cur ≤ 1008#64 ∧
      (1008#64).toNat - s.cur.toNat = 8) ∧
    ∃ s : State, ControlInv s ∧ s.resetReq = none ∧ s.bph = .boundary ∧ s.st.inPacket = true ∧
      s.cfg.admitted = true ∧ s.cfg.window = windowSpec ∧ 4 * 1500000 ≤ s.cfg.sampleRate ∧
      2 * s.cfg.bitRate * 18 ≤ 2 * s.cfg.sampleRate + 1500000 ∧
      2 * s.cfg.sampleRate ≤ 2 * s.cfg.bitRate * 18 + 1500000 ∧
      s.input = [⟨1018#64, true, false⟩] ∧ s.cur ≤ 1018#64 ∧ (1018#64).toNat - s.cur.toNat = 18 :=
  ⟨⟨presented [⟨1008#64, true, false⟩, edge1020] (inUnit .awaitSop 0 0), controlInv_awaitSop _, rfl, rfl,
      rfl, by decide, rfl, by decide, by decide, by decide, rfl, by decide, by decide⟩,
    ⟨presented [⟨1018#64, true, false⟩] (inUnit .awaitSop 0 0), controlInv_awaitSop _, rfl, rfl,
      rfl, by decide, rfl, by decide, by decide, by decide, rfl, by decide, by decide⟩⟩

theorem witness_AlternatingRunCompletesThePreamble :
    (at1000 .searchPreamble).st = .searchPreamble ∧ (at1000 .searchPreamble).preCnt = 0#6 ∧
    (at1000 .searchPreamble).preExp = true ∧ (at1000 .searchPreamble).stopReq = false ∧
    0 < (at1000 .searchPreamble).cfg.preambleRun ∧ (at1000 .searchPreamble).cfg.preambleRun ≤ 63 ∧
    62 < (at1000 .searchPreamble).cfg.preambleRun := by decide

theorem witness_StepPositionsTheCursor :
    edgeAt (presented [edge999] (at1000 .resetWait)) edge999 [] ∧
    (at1000 .resetWait).st = .resetWait := ⟨⟨rfl, rfl⟩, rfl⟩

/-- The smallest distance. -/
theorem witness_StepSkipsTheTrailingEdge :
    edgeAt (presented [⟨1000#64, true, true⟩] (at1000 .done)) ⟨1000#64, true, true⟩ [] ∧
    (at1000 .done).st = .done ∧ (at1000 .done).cur ≤ 1000#64 := ⟨⟨rfl, rfl⟩, rfl, by decide⟩

theorem witness_StepFaultsOnABackwardEdge :
    edgeAt (presented [edge999] (at1000 .awaitCrc)) edge999 [] ∧ edge999.t < (at1000 .awaitCrc).cur ∧
    (at1000 .awaitCrc).st ≠ .resetWait ∧ (at1000 .awaitCrc).st ≠ .halted ∧
    (at1000 .awaitCrc).st ≠ .faulted := ⟨⟨rfl, rfl⟩, by decide, by decide, by decide, by decide⟩

theorem witness_HoldChangesNothing :
    (at1000 .awaitSop).resetReq = none ∧ (at1000 .awaitSop).input = [] ∧
    (at1000 .halted).st = .halted ∧ (at1000 .faulted).st = .faulted := by decide

/-- An admissible configuration at the least ratio, and an inadmissible one just below it. -/
theorem witness_ResetReinitialises :
    ({ at1000 .faulted with resetReq := some (Cfg.withRates 300000 1200000) } : State).resetReq =
      some (Cfg.withRates 300000 1200000) ∧
    (0 < (Cfg.withRates 300000 1200000).bitRate ∧
      4 * (Cfg.withRates 300000 1200000).bitRate ≤ (Cfg.withRates 300000 1200000).sampleRate ∧
      (Cfg.withRates 300000 1200000).msgTypeWidth = 5 ∧
      (Cfg.withRates 300000 1200000).mtVendor < 2 ^ (Cfg.withRates 300000 1200000).msgTypeWidth ∧
      (Cfg.withRates 300000 1200000).objPosLsb + (Cfg.withRates 300000 1200000).objPosWidth ≤ 32) ∧
    ¬ 4 * (Cfg.withRates 300000 1199999).bitRate ≤ (Cfg.withRates 300000 1199999).sampleRate := by decide

/-- A step inside a packet, for the statements about every step. -/
theorem witness_StepKeepsControlInvariant :
    ∃ s t : State, ControlInv s ∧ s.resetReq = none ∧ s.st = .awaitSop ∧ step s = .next t :=
  ⟨presented [edge1020] (inUnit .awaitSop 0 0), _, controlInv_awaitSop _, rfl, rfl, rfl⟩

/-- An admissible configuration and an inadmissible one. -/
theorem witness_ResetHasTheInvariants :
    Cfg.c0.admitted = true ∧ (Cfg.withRates 300000 1199999).admitted = false := by decide

/-- A packet state with one Frame emitted. -/
theorem witness_StepKeepsTimeInvariant :
    ∃ s t : State, TimeInv s ∧ s.frames ≠ [] ∧ step s = .next t :=
  ⟨presented [edge1020] { inUnit .awaitSop 0 0 with
      frames := [⟨.preamble, 1#64, 0#64, 7#64, 1000#64⟩], unitStart := 1000#64 }, _,
    by constructor <;> first | decide | exact .singleton _, by decide, rfl⟩

theorem witness_StepKeepsFramesWellFormed :
    ∃ s t : State, FramesInv s ∧ s.frames ≠ [] ∧ step s = .next t :=
  ⟨presented [edge1020] { inUnit .awaitSop 0 0 with
      frames := [⟨.preamble, 1#64, 0#64, 7#64, 1000#64⟩] }, _,
    by constructor <;> decide, by decide, rfl⟩

theorem witness_StepNeverStopsInARun :
    ∃ s : State, ControlInv s ∧ s.resetReq = some Cfg.c0 ∧
      ∀ c, s.resetReq = some c → c.admitted = true :=
  ⟨{ inUnit .awaitSop 0 0 with resetReq := some Cfg.c0 }, by constructor <;> decide, rfl, fun c h => by
    cases h
    decide⟩

/-- A step inside a packet, and a reset. -/
theorem witness_StepFollowsTheTransitionTable :
    (∃ (s t : State), ControlInv s ∧ edgeAt s edge1020 [] ∧ step s = .next t) ∧
    ∃ s t : State, s.resetReq ≠ none ∧ step s = .next t :=
  ⟨⟨presented [edge1020] (inUnit .awaitSop 0 0), _, controlInv_awaitSop _, ⟨rfl, rfl⟩, rfl⟩,
    ⟨{ at1000 .halted with resetReq := some Cfg.c0 }, _, by decide, rfl⟩⟩

/-- A step that emits two Frames: a Byte Frame, then the object's. -/
theorem witness_StepAppendsAtMostTwoFrames :
    ∃ s t : State, s.resetReq = none ∧ step s = .next t ∧ t.frames.length = 2 :=
  ⟨presented [edge1020] { sourceObject with cfg := { Cfg.c0 with emitByteFrames := true } }, _, rfl, rfl,
    by decide⟩

theorem witness_CursorNeverDecreases :
    ∃ s t : State, s.resetReq = none ∧ s.st ≠ .resetWait ∧ step s = .next t :=
  ⟨presented [edge1020] (inUnit .awaitSop 0 0), _, rfl, by decide, rfl⟩

theorem witness_ConfigurationIsReadOnly : ∃ s t : State, s.resetReq = none ∧ step s = .next t :=
  ⟨presented [edge1020] (inUnit .awaitSop 0 0), _, rfl, rfl⟩

/-- A step that stores an entry. -/
theorem witness_ListIsWrittenBySourceCapabilitiesOnly :
    ∃ s t : State, s.resetReq = none ∧ step s = .next t ∧ t.pdoCount ≠ s.pdoCount :=
  ⟨presented [edge1020] sourceObject, _, rfl, rfl, by decide⟩

/-- A backward edge; a session with two edges at one sample; a step on ordered edges. -/
theorem witness_FaultedOnlyByABackwardEdge :
    (∃ s t : State, s.st ≠ .faulted ∧ step s = .next t ∧ t.st = .faulted) ∧
    (∃ s : State, launchable Cfg.c0 [edge1020, edge1020] ∧ session Cfg.c0 [edge1020, edge1020] = .next s) ∧
    ∃ s t : State, inputOrdered s ∧ s.st = .awaitSop ∧ step s = .next t :=
  ⟨⟨presented [edge999] (at1000 .done), _, by decide, rfl, rfl⟩,
    ⟨_, by unfold launchable; decide, rfl⟩,
    ⟨presented [edge1020] (inUnit .awaitSop 0 0), _, by unfold inputOrdered; decide, rfl, rfl⟩⟩

/-- A halt out of the search, and one out of a failed EOP. -/
theorem witness_HaltsOnlyAtACancellationPoint :
    (∃ s t : State, s.st = .searchPreamble ∧ step s = .next t ∧ t.st = .halted) ∧
    ∃ s t : State, s.st = .awaitEop ∧ step s = .next t ∧ t.st = .halted :=
  ⟨⟨presented [⟨1020#64, true, true⟩] (at1000 .searchPreamble), _, rfl, rfl, by decide⟩,
    ⟨presented [⟨1020#64, true, true⟩] (inUnit .awaitEop 0 4), _, rfl, rfl, by decide⟩⟩

theorem witness_StopRequestIsIgnoredInsideAPacket :
    edgeAt (presented [edge1020] sourceObject) edge1020 [] ∧ sourceObject.st.inData = true :=
  ⟨⟨rfl, rfl⟩, rfl⟩

theorem witness_EdgeLevelIsNeverRead :
    edgeAt (presented [edge1020] (at1000 .awaitSop)) edge1020 [] ∧
    (at1000 .awaitSop).st ≠ .halted ∧ (at1000 .awaitSop).st ≠ .faulted :=
  ⟨⟨rfl, rfl⟩, by decide, by decide⟩

/-- Two different states with the same inputs. -/
theorem witness_ResetForgetsTheSession :
    ∃ s s' : State, s ≠ s' ∧ s.resetReq ≠ none ∧ s'.resetReq = s.resetReq ∧ s'.input = s.input ∧
      s'.stopReq = s.stopReq :=
  ⟨{ at1000 .faulted with resetReq := some Cfg.c0 }, { sourceObject with resetReq := some Cfg.c0 },
    by decide, by decide, rfl, rfl, rfl⟩

/-- A step with an event: the trailer differs. -/
theorem witness_EventsMatchTheFrames :
    ∃ s t : State, s.resetReq = none ∧ step s = .next t ∧ t.ev.crcMismatch = true :=
  ⟨presented [edge1020] { inUnit .awaitCrc 7 4 with bph := .mid, symSr := 0x0E#5, crc := 1#32 }, _, rfl,
    rfl, by decide⟩

/-- One step for each of the first three clauses. -/
theorem witness_EventsThatCanCoincide :
    (∃ s t : State, s.resetReq = none ∧ step s = .next t ∧ t.ev.inputFault = true) ∧
    (∃ s t : State, s.resetReq = none ∧ step s = .next t ∧ t.ev.sopError = true) ∧
    ∃ s t : State, s.resetReq = none ∧ step s = .next t ∧ t.ev.eopError = true :=
  ⟨⟨presented [edge999] (at1000 .done), _, rfl, rfl, by decide⟩,
    ⟨presented [edge1020] (inUnit .awaitSop 3 4), _, rfl, rfl, by decide⟩,
    ⟨presented [edge1020] (inUnit .awaitEop 0 4), _, rfl, rfl, by decide⟩⟩

/-- The start of an ordered set, with 730 edges presented: the longest packet. -/
theorem witness_PacketEndsWithinItsBound :
    ∃ s : State, ControlInv s ∧ s.st.inPacket = true ∧ s.resetReq = none ∧
      2 * bitsLeft s ≤ s.input.length ∧ 2 * bitsLeft s = 730 :=
  ⟨presented (List.replicate 730 edge1020) (inUnit .awaitSop 0 0), controlInv_awaitSop _, rfl, rfl, by
    simp only [presented, List.length_replicate]
    decide, by decide⟩

/-- The symbols of a message with one object, all at one sample. -/
theorem witness_WellFormedPacketIsDecoded :
    ∃ (s : State) (ys : List TimedSym), s.st = .awaitSop ∧ s.unitSym = 0#3 ∧ s.acc = 0#32 ∧
      s.cfg.invalidNibble = 0xFF#8 ∧ s.cfg.emitByteFrames = false ∧
      3 ≤ s.cfg.sopMatchThreshold ∧ s.cfg.sopMatchThreshold ≤ 4 ∧
      [0x0001912C#32].length = (ndo 0x13A1#16).toNat ∧
      ys.map TimedSym.x = packetSymbols s.cfg.crcPoly 0 0x13A1#16 [0x0001912C#32] :=
  ⟨inUnit .awaitSop 0 0,
    (packetSymbols 0x04C11DB7#32 0 0x13A1#16 [0x0001912C#32]).map fun x => ⟨x, 1000#64, 1000#64⟩,
    rfl, rfl, rfl, rfl, rfl, by decide, by decide, by decide, by
      simp only [List.map_map, Function.comp_def, List.map_id']
      rfl⟩

/-- The lowest PDO of each tag and subtype, and the highest. -/
theorem witness_PdoViewFollowsItsTag :
    (0x3FFFFFFF / 2 ^ 30 = 0 ∧ 0x40000000 / 2 ^ 30 = 1 ∧ 0xBFFFFFFF / 2 ^ 30 = 2) ∧
    (0xC0000000 / 2 ^ 30 = 3 ∧ 0xC0000000 / 2 ^ 28 % 4 = 0) ∧
    (0xD0000000 / 2 ^ 30 = 3 ∧ 0xD0000000 / 2 ^ 28 % 4 = 1) ∧
    (0xE0000000 / 2 ^ 30 = 3 ∧ 2 ≤ 0xE0000000 / 2 ^ 28 % 4) ∧ 2 ≤ 0xFFFFFFFF / 2 ^ 28 % 4 := by decide

theorem witness_UnresolvedRequestIsViewedRaw : pdoView 0xE0000000#32 = .reserved 0xE0000000#32 := by
  decide

/-- A Discover Identity header in a message of 2 objects, and its stub; headers that are none. -/
theorem witness_DiscoverIdentityStubCountIsPositive :
    isDiscoverIdentity 0xFF008001#64 = true ∧ isDiscoverIdentity 0xFF000001#64 = false ∧
    isDiscoverIdentity 0xFF008002#64 = false ∧ 2 < 3 ∧
    (0xFF008001 / 2 ^ 15 % 2 = 1 ∧ 0xFF008001 % 2 ^ 5 = 1) ∧
    discoverIdentityStub 0xFF008001#64 2 = some Config.discoverIdRemaining :=
  ⟨by decide, by decide, by decide, by decide, by decide, rfl⟩

end Sys2Proof.Tests
end

section
/-! The family of 20_memory.md: how bits fill the symbol register (R65, R150). -/

namespace Sys2Proof.Memory

open Sys2Proof Sys2Proof.Machine

/-! ### Placing one bit -/

/-- R150: `sr[k] <- b` changes bit `k` and no other. -/
theorem getLsbD_setSymBit (sr : Sym) (b : Bool) {k : Nat} (hk : k < 5) (i : Nat) :
    (setSymBit sr k b).getLsbD i = if i = k then b else sr.getLsbD i := by
  have mask : (1#5 <<< k).getLsbD i = decide (i = k) := by
    rw [BitVec.getLsbD_shiftLeft, BitVec.getLsbD_one, Bool.eq_iff_iff]
    simp
    omega
  rw [setSymBit, BitVec.getLsbD_or, BitVec.getLsbD_and, BitVec.getLsbD_not, mask]
  by_cases hik : i = k
  · subst hik
    cases b <;> simp [hk]
  · have kept : (sr.getLsbD i && decide (i < 5)) = sr.getLsbD i := by
      simpa using BitVec.lt_of_getLsbD
    cases b <;> simp [mask, hik, kept]

@[simp] theorem shiftBit_symCnt (b : Bool) (t : Sample) (s : State) :
    (shiftBit b t s).symCnt = s.symCnt + 1#3 := by
  unfold shiftBit; split <;> rfl

@[simp] theorem shiftBit_symSr (b : Bool) (t : Sample) (s : State) :
    (shiftBit b t s).symSr =
      setSymBit (if s.symCnt = 0#3 then 0#5 else s.symSr) s.symCnt.toNat b := by
  unfold shiftBit; split <;> rfl

@[simp] theorem shiftBit_symStart (b : Bool) (t : Sample) (s : State) :
    (shiftBit b t s).symStart = if s.symCnt = 0#3 then t else s.symStart := by
  unfold shiftBit; split <;> rfl

/-! ### A symbol partly received -/

/-- The first `k` bits of `x` have been placed, the first of them starting at `t0`; the register's other
bits are 0. -/
structure HoldsLowBits (x : Sym) (t0 : Sample) (k : Nat) (s : State) : Prop where
  cnt : s.symCnt.toNat = k
  start : s.symStart = t0
  bits : ∀ i, s.symSr.getLsbD i = (decide (i < k) && x.getLsbD i)

/-- The first bit clears whatever the register held and sets the symbol's start. -/
theorem holdsLowBits_shiftBit_first (x : Sym) (t0 : Sample) (s : State) (h0 : s.symCnt = 0#3) :
    HoldsLowBits x t0 1 (shiftBit (x.getLsbD 0) t0 s) where
  cnt := by simp [h0]
  start := by simp [h0]
  bits i := by
    rw [shiftBit_symSr, if_pos h0, h0, BitVec.toNat_zero, getLsbD_setSymBit _ _ (by decide)]
    by_cases hi : i = 0 <;> simp [hi]

/-- Each later bit adds itself above the bits placed, and keeps the start. -/
theorem holdsLowBits_shiftBit_later {x : Sym} {t0 : Sample} {k : Nat} {s : State} (t : Sample)
    (h : HoldsLowBits x t0 k s) (hpos : 0 < k) (hk : k < 5) :
    HoldsLowBits x t0 (k + 1) (shiftBit (x.getLsbD k) t s) := by
  obtain ⟨hcnt, hstart, hbits⟩ := h
  have hne : s.symCnt ≠ 0#3 := fun h0 => by simp [h0] at hcnt; omega
  refine ⟨?_, by simp [hne, hstart], fun i => ?_⟩
  · rw [shiftBit_symCnt, BitVec.toNat_add, hcnt]
    exact Nat.mod_eq_of_lt (show k + 1 < 2 ^ 3 by omega)
  · rw [shiftBit_symSr, if_neg hne, hcnt, getLsbD_setSymBit _ _ hk, hbits]
    by_cases hik : i = k
    · simp [hik]
    · have hlt : i < k + 1 ↔ i < k := by omega
      simp [hik, hlt]

/-- With all five bits placed the register is the symbol. -/
theorem symSr_eq_of_holdsLowBits {x : Sym} {t0 : Sample} {s : State} (h : HoldsLowBits x t0 5 s) :
    s.symSr = x :=
  BitVec.eq_of_getLsbD_eq fun i hi => by rw [h.bits, decide_eq_true hi, Bool.true_and]

/-- Settles O17: the first bit opens the symbol, and each of the four others extends the bits placed. -/
theorem symbolIsAssembledLsbFirst : Obligations.SymbolIsAssembledLsbFirst := by
  intro x s t0 t1 t2 t3 t4 h0
  have h1 := holdsLowBits_shiftBit_first x t0 s h0
  have h2 := holdsLowBits_shiftBit_later t1 h1 (by decide) (by decide)
  have h3 := holdsLowBits_shiftBit_later t2 h2 (by decide) (by decide)
  have h4 := holdsLowBits_shiftBit_later t3 h3 (by decide) (by decide)
  have h5 := holdsLowBits_shiftBit_later t4 h4 (by decide) (by decide)
  exact ⟨symSr_eq_of_holdsLowBits h5, BitVec.eq_of_toNat_eq h5.cnt, h5.start⟩

end Sys2Proof.Memory
end


section
/-! The family of 41_frame_sync.md: the preamble search (R131 to R133), the classification of an ordered
set (R136) and what it leads to (R137, R138). -/

namespace Sys2Proof.FrameSync

open Sys2Proof Sys2Proof.Machine

/-! ### The classification (R136) -/

/-- A search of the indices in order finds `v` exactly when `v` is the first index that qualifies. -/
theorem finRange_find?_eq_some_iff {n : Nat} (p : Fin n → Bool) (v : Fin n) :
    (List.finRange n).find? p = some v ↔ p v = true ∧ ∀ u < v, p u = false := by
  rw [List.find?_eq_some_iff_getElem]
  refine and_congr_right fun _ => ⟨?_, fun hfirst => ⟨v, by simp, by simp, fun j hj => ?_⟩⟩
  · rintro ⟨i, hi, hget, hbelow⟩ u hu
    have hiv : i = v := by simpa [Fin.ext_iff] using hget
    simpa using hbelow u (by omega)
  · simpa using hfirst ⟨j, by omega⟩ hj

/-- R136: the classification is the first variant in table order at the threshold. -/
theorem sopClassify_eq_some_iff (c : Cfg) (rx : Vector Sym 4) (v : Fin 5) :
    sopClassify c rx = some v ↔
      c.sopMatchThreshold ≤ sopScore v rx ∧ ∀ u < v, sopScore u rx < c.sopMatchThreshold := by
  simp only [sopClassify, finRange_find?_eq_some_iff, decide_eq_true_eq, decide_eq_false_iff_not,
    Nat.not_le]

/-- R136: no variant is given exactly when none reaches the threshold. -/
theorem sopClassify_eq_none_iff (c : Cfg) (rx : Vector Sym 4) :
    sopClassify c rx = none ↔ ∀ v, sopScore v rx < c.sopMatchThreshold := by
  simp [sopClassify]

/-- Settles O3: the search's two characterisations, with the score in its definition, and the table. -/
theorem sopClassifyIsFirstVariantAtThreshold :
    Obligations.SopClassifyIsFirstVariantAtThreshold := fun c rx =>
  ⟨sopClassify_eq_some_iff c rx, sopClassify_eq_none_iff c rx, by decide⟩

/-! ### The completed ordered set (R137, R138) -/

/-- R138, R209: what a rejected ordered set leaves. -/
theorem sopError_eq (s : State) :
    sopError s = searching s.cur { s with
      frames := s.frames ++ [⟨.sopError, 0#64, 0#64, s.unitStart, s.cur⟩]
      ev := { s.ev with sopError := true }
      trace := s.trace ++ [⟨.sopError, s.cur⟩] } := by
  simp only [sopError, restart, enterSearch, searching, searchState_eq]
  rfl

/-- Settles O20: the completed set runs by its classification, whose two outcomes are the clauses. -/
theorem orderedSetRunsItsVariantOrRestarts : Obligations.OrderedSetRunsItsVariantOrRestarts := by
  intro s hs
  rw [runUnit_awaitSop s hs]
  constructor
  · intro v hv hlower
    rw [(sopClassify_eq_some_iff _ _ _).2 ⟨hv, hlower⟩, exec_variantInstr]
  · intro hall
    rw [(sopClassify_eq_none_iff _ _).2 hall, sopError_eq]

/-- The rows of the SOP table are the variants' instructions with their indices (R88). -/
theorem exists_variant_of_mem_variantRows {p : Instr × BitVec 3} (hp : p ∈ variantRows) :
    ∃ v : Fin 5, p = (variantInstr v, BitVec.ofNat 3 v) := by
  revert p
  decide

/-- Settles O19: each variant's instruction is `sop_found` of its index, which is R137 then R194. -/
theorem sopVariantOpensTheHeader : Obligations.SopVariantOpensTheHeader := by
  intro p hp s
  obtain ⟨v, rfl⟩ := exists_variant_of_mem_variantRows hp
  exact exec_variantInstr v s

/-! ### The step that completes a bit (R110, R112, R113) -/

/-- R110: with no reset and outside the two quiescent states, a step takes the edge at the head. -/
theorem step_eq_takeEdge {s : State} {e : Edge} {rest : List Edge} (he : edgeAt s e rest)
    (hq : quiescent s = false) : step s = takeEdge e.t (consume e rest (clearEvents s)) := by
  obtain ⟨hreset, hinput⟩ := he
  have hq' : quiescent (clearEvents s) = false := hq
  simp [step, blockStep, hreset, edgeStep, hq', hinput]

/-- R110: in a state that recovers bits, the phase tells how an edge at or after the cursor is read. -/
theorem takeEdge_eq_by_phase {s : State} {t : Sample}
    (hs : s.st = .searchPreamble ∨ s.st.inPacket = true) (hle : s.cur ≤ t) :
    (s.bph = .boundary → takeEdge t s = boundaryEdge t s) ∧
    (s.bph = .mid → takeEdge t s = midEdge t s) := by
  have hnlt : ¬ t < s.cur := BitVec.not_lt.mpr hle
  constructor <;> intro hph <;> cases hst : s.st <;> simp_all [takeEdge, St.inPacket]

/-- R112, R113, R115: the step that completes a bit delivers it to the state `afterBit`. -/
theorem step_eq_deliverBit {s : State} {e : Edge} {rest : List Edge} {b : Bool} {t0 : Sample}
    (he : edgeAt s e rest) (hs : s.st = .searchPreamble ∨ s.st.inPacket = true) (hle : s.cur ≤ e.t)
    (hc : closes s e b t0) : step s = deliverBit b t0 (afterBit s e rest b t0) := by
  have hq : quiescent s = false := by cases hst : s.st <;> simp_all [quiescent, St.inPacket]
  obtain ⟨hboundary, hmid⟩ :=
    takeEdge_eq_by_phase (s := consume e rest (clearEvents s)) (t := e.t) hs hle
  rw [step_eq_takeEdge he hq]
  obtain ⟨hph, rfl, rfl⟩ | ⟨hph, hwindow, rfl, rfl⟩ := hc
  · rw [hmid hph, ← closeBit_true_eq s e rest hph]
    rfl
  · rw [hboundary hph, ← closeBit_false_eq s e rest hph]
    exact if_neg (by simp [hwindow])

/-! ### One bit of the preamble search (R131 to R133) -/

/-- R131: a bit is counted, or restarts the count at the cursor. -/
theorem preambleCount_eq (b : Bool) (s : State) :
    preambleCount b s = { s with
      preCnt := if b = s.preExp then s.preCnt + 1#6 else 0#6
      preExp := if b = s.preExp then !s.preExp else true
      preStart := if b = s.preExp then s.preStart else s.cur } := by
  unfold preambleCount
  split <;> rfl

/-- Settles O31: the step delivers the bit to the search, which counts it and then takes one of the two
branches of R131. -/
theorem stepSearchesThePreamble : Obligations.StepSearchesThePreamble := by
  intro s e rest b t0 he hs hle hc
  have hstep : step s = .next (preambleBit b (afterBit s e rest b t0)) := by
    rw [step_eq_deliverBit he (.inl hs) hle hc, deliverBit]
    simp [afterBit, hs]
  rw [hstep, preambleBit, preambleCount_eq]
  constructor
  · intro hrun
    exact congrArg _ (if_pos hrun)
  · intro hrun
    refine congrArg _ ((if_neg hrun).trans ?_)
    cases hstop : e.stopReq <;> simp [afterBit, hstop, hs]

end Sys2Proof.FrameSync
end


section
/-! The family of 43_crc32.md: the reversed polynomial (R171) and the check value (R175). -/

namespace Sys2Proof.Crc32

open Sys2Proof Sys2Proof.Machine

/-! ### The bit reversal (R171) -/

/-- After `n` passes the reversal has placed its low `n` bits and no other. -/
theorem getLsbD_foldl_reverseBits (p : Word) (i : Nat) {n : Nat} (hn : n ≤ 32) :
    ((List.range n).foldl
        (fun r j => if p.getLsbD (31 - j) then r ||| (1#32 <<< j) else r) 0#32).getLsbD i =
      (decide (i < n) && p.getLsbD (31 - i)) := by
  induction n with
  | zero => simp
  | succ n ih =>
    have mask : (1#32 <<< n).getLsbD i = decide (i = n) := by
      rw [BitVec.getLsbD_shiftLeft, BitVec.getLsbD_one, Bool.eq_iff_iff]
      simp
      omega
    rw [List.range_succ, List.foldl_append, List.foldl_cons, List.foldl_nil,
      apply_ite (BitVec.getLsbD · i), BitVec.getLsbD_or, ih (by omega), mask]
    by_cases hin : i = n
    · subst hin
      cases p.getLsbD (31 - i) <;> simp
    · have hlt : i < n + 1 ↔ i < n := by omega
      simp [hin, hlt]

/-- R171: bit `i` of the reversal is bit `31 - i`. -/
theorem getLsbD_bitReverse32 (p : Word) {i : Nat} (hi : i < 32) :
    (bitReverse32 p).getLsbD i = p.getLsbD (31 - i) := by
  rw [bitReverse32, getLsbD_foldl_reverseBits p i le_rfl, decide_eq_true hi, Bool.true_and]

/-- R171: `RPOLY`, bit by bit from the reversal's rule. -/
theorem bitReverse32_crcPoly : bitReverse32 0x04C11DB7#32 = 0xEDB88320#32 := by
  have mirrored : ∀ i < 32, (0x04C11DB7#32).getLsbD (31 - i) = (0xEDB88320#32).getLsbD i := by decide
  exact BitVec.eq_of_getLsbD_eq fun i hi => (getLsbD_bitReverse32 _ hi).trans (mirrored i hi)

/-! ### The check value (R175) -/

/-- R170, R171: a list's CRC under the polynomial whose reversal is `r`. -/
theorem crcUpdate_eq_of_bitReverse32 {p r : Word} (hr : bitReverse32 p = r) (s : Word)
    (l : List Byte) : crcUpdate p s l = ~~~(l.foldl (crcByte r) (~~~s)) := by
  rw [← hr, crcUpdate]

/-- R175: the check value, run on the reversed polynomial. -/
theorem crcUpdate_checkDigits :
    crcUpdate 0x04C11DB7#32 0#32
      [0x31#8, 0x32#8, 0x33#8, 0x34#8, 0x35#8, 0x36#8, 0x37#8, 0x38#8, 0x39#8] = 0xCBF43926#32 := by
  rw [crcUpdate_eq_of_bitReverse32 bitReverse32_crcPoly]
  simp [crcByte, crcRound]

/-- Settles O11: the reversal's rule, which gives the first constant, on which the check value is run. -/
theorem crcEngineConstants : Obligations.CrcEngineConstants :=
  ⟨bitReverse32_crcPoly, fun p _ hi => getLsbD_bitReverse32 p hi, crcUpdate_checkDigits⟩

end Sys2Proof.Crc32
end


section
/-! The family of 44_packet_fsm.md: the dispatch class of a Header (R196), the completed Header (R195),
an object of a Vendor Defined message (R201), the CRC trailer (R205), the EOP position (R206), and the
two edges that only position the cursor (R191, R207). -/

namespace Sys2Proof.PacketFsm

open Sys2Proof Sys2Proof.Machine

/-! ### The dispatch class of a Header (R196) -/

/-- The instruction of a dispatch class (R93): what the decoder answers once `KIND` is known. -/
def kindInstr : Kind → Header → Instr
  | .control => .control
  | .srcCap => .sourceCapabilities
  | .request => .request
  | .vdm => .vendorDefined
  | .other => .otherData

theorem decodeHdr_eq_kindInstr (c : Cfg) (h : Header) : decodeHdr c h = kindInstr (kind c h) h := by
  unfold decodeHdr
  cases kind c h <;> rfl

/-- R92: the number of data objects is bits 14:12 of the Header's value. -/
theorem ndo_eq_zero_iff (h : Header) : ndo h = 0 ↔ h.toNat / 2 ^ 12 % 2 ^ 3 = 0 := by
  rw [ndo, BitVec.toNat_eq, BitVec.extractLsb'_toNat, Nat.shiftRight_eq_div_pow]
  rfl

/-- R196: only a Header with objects is of the Source Capabilities class. -/
theorem ndo_ne_zero_of_kind_srcCap {c : Cfg} {h : Header} (hk : kind c h = .srcCap) :
    ndo h ≠ 0 := by
  intro h0
  rw [kind, if_pos h0] at hk
  cases hk

/-- Settles O6: the instruction is its class's, and each clause is one branch of `KIND`. -/
theorem headerIsDecodedByItsClass : Obligations.HeaderIsDecodedByItsClass := by
  intro c h n m
  have hn : ndo h = 0 ↔ n = 0 := ndo_eq_zero_iff h
  have hm : mt c h = m := rfl
  rw [decodeHdr_eq_kindInstr, kind, hm]
  refine ⟨fun h0 => ?_, fun h0 hs => ?_, fun h0 hs hr => ?_, fun h0 hs hr hv => ?_,
    fun h0 hs hr hv => ?_⟩
  · rw [if_pos (hn.2 h0), kindInstr]
  · rw [if_neg (mt hn.1 h0), if_pos hs, kindInstr]
  · rw [if_neg (mt hn.1 h0), if_neg hs, if_pos hr, kindInstr]
  · rw [if_neg (mt hn.1 h0), if_neg hs, if_neg hr, if_pos hv, kindInstr]
  · rw [if_neg (mt hn.1 h0), if_neg hs, if_neg hr, if_neg hv, kindInstr]

/-! ### A class at work (R195, R197) -/

/-- A class's instruction, on any Header, is the shared meaning with the class's own part. -/
theorem exec_kindInstr (k : Kind) (h : Header) (s : State) :
    exec (kindInstr k h) s = headerMeaning (k == .srcCap) h (objectPart k) s := by
  cases k <;> rfl

theorem exec_kindInstr_readPayload {s : State} (hs : s.st = .readPayload) (k : Kind) (h : Header) :
    exec (kindInstr k h) s = objectDone (objectPart k) s := by
  rw [exec_kindInstr, headerMeaning, if_pos hs]

/-- R195: on a Header of its class an instruction leaves `afterHeader`, with the list cleared for
Source Capabilities, whose Header always has objects. -/
theorem exec_kindInstr_awaitHeader {s : State} (hs : s.st = .awaitHeader) {h : Header} {k : Kind}
    (hk : kind s.cfg h = k) :
    exec (kindInstr k h) s =
      .next (afterHeader h (if k = .srcCap then 0#3 else s.pdoCount) s) := by
  have clears : (k == .srcCap && ndo h != 0#3) = decide (k = .srcCap) := by
    by_cases hsc : k = .srcCap
    · simpa [hsc] using ndo_ne_zero_of_kind_srcCap (hk.trans hsc)
    · simp [hsc]
  rw [exec_kindInstr, headerMeaning, if_neg (by simp [hs]), headerDone_eq, clears]
  simp only [decide_eq_true_eq]
  rfl

/-- Settles O21: the same rule for each of the five classes. -/
theorem headerCompletes : Obligations.HeaderCompletes := fun _ _ hs =>
  ⟨exec_kindInstr_awaitHeader hs, exec_kindInstr_awaitHeader hs, exec_kindInstr_awaitHeader hs,
    exec_kindInstr_awaitHeader hs, exec_kindInstr_awaitHeader hs⟩

/-- The state the class's part starts from: the object in the accumulator is covered by the CRC
(R197). -/
def coverObject (s : State) : State :=
  { s with crc := crcUpdate s.cfg.crcPoly s.crc (bytesLE 4 s.acc) }

/-- R197: an object whose class only emits the Frames `fs` leaves `afterObject`. -/
theorem objectDone_eq_afterObject {s : State} (hs : s.st = .readPayload) {fs : List Frame}
    {part : Word → Sample → State → Result}
    (hpart : part s.acc s.unitStart (coverObject s) =
      .next { coverObject s with frames := s.frames ++ fs }) :
    objectDone part s = .next (afterObject fs s) := by
  have hdone : objectDone part s =
      .next (nextObject { coverObject s with frames := s.frames ++ fs }) :=
    congrArg (andThen · fun u => .next (nextObject u)) hpart
  rw [hdone, nextObject_eq]
  simp only [coverObject, hs]
  rfl

/-- R201: one Frame, whose type the object index selects. -/
theorem vdmObject_eq (v : Word) (us : Sample) (s : State) :
    vdmObject v us s = { s with
      frames := s.frames ++ [⟨if s.objIndex = 0#3 then .vdmHeader else .dataObject,
        v.zeroExtend 64, 0#64, us, s.cur⟩] } := by
  unfold vdmObject
  split <;> rfl

/-- Settles O24: the class's part is one Frame, of the type the object index selects. -/
theorem vdmObjectIsReported : Obligations.VdmObjectIsReported := by
  intro h s hs
  have hexec : exec (.vendorDefined h) s = .next (afterObject
      [objectFrame (if s.objIndex = 0#3 then .vdmHeader else .dataObject) 0#64 s] s) :=
    (exec_kindInstr_readPayload hs .vdm h).trans
      (objectDone_eq_afterObject hs (congrArg _ (vdmObject_eq s.acc s.unitStart (coverObject s))))
  refine ⟨fun hfirst => ?_, fun hlater => ?_⟩
  · rw [hexec, if_pos hfirst]
  · rw [hexec, if_neg hlater]

/-! ### The CRC trailer (R205) -/

/-- Settles O26: the trailer field by field, with the event's level and record by whether the two
values agree. -/
theorem crcTrailerIsCompared : Obligations.CrcTrailerIsCompared := by
  intro s hs
  rw [runUnit_awaitCrc s hs, crcDone_eq]
  by_cases heq : s.acc = s.crc
  · simp [heq]
  · simp [heq, Events.assert]

/-! ### Entering the search (R130) -/

theorem enterSearch_eq_searching (t : Sample) (s : State) : enterSearch t s = searching t s := by
  rw [enterSearch, searchState_eq, searching]

/-! ### The EOP position (R206) -/

/-- The rows of the symbol tables are the decoder's (R82, R83, R84). -/
theorem decodeSym_of_mem_symbolRows {p : Instr × Sym} (hp : p ∈ symbolRows) :
    decodeSym p.2 = p.1 := by
  revert p
  decide

/-- R150: every symbol instruction is the shared meaning of its value. -/
theorem exec_of_mem_symbolRows {p : Instr × Sym} (hp : p ∈ symbolRows) (s : State) :
    exec p.1 s = symbolMeaning p.2 s := by
  rw [← decodeSym_of_mem_symbolRows hp, exec_decodeSym]

theorem symbolMeaning_awaitEop (x : Sym) {s : State} (hs : s.st = .awaitEop) :
    symbolMeaning x s = .next (eopSymbol x s) := by
  simp only [symbolMeaning, hs]

/-- R139, R206: the EOP K-code ends the packet. -/
theorem eopSymbol_kEop (s : State) :
    eopSymbol kEop s = { s with
      st := .done, frames := s.frames ++ [⟨.eop, 1#64, 0#64, s.symStart, s.cur⟩] } := rfl

/-- R206, R209: any other symbol is reported and restarts the search at the cursor. -/
theorem eopSymbol_of_ne {x : Sym} (hx : x ≠ kEop) (s : State) :
    eopSymbol x s = searching s.cur { s with
      frames := s.frames ++ [⟨.eop, 0#64, 0#64, s.symStart, s.cur⟩]
      ev := { s.ev with eopError := true }
      trace := s.trace ++ [⟨.eopError, s.cur⟩] } := by
  rw [eopSymbol, if_neg (by simpa [eopMatch] using hx), restart, enterSearch_eq_searching]
  rfl

/-- Settles O15: the symbol is in the EOP position, where only its equality with the K-code
counts. -/
theorem symbolInEopPositionEndsThePacket : Obligations.SymbolInEopPositionEndsThePacket := by
  intro p hp s hs
  rw [exec_of_mem_symbolRows hp, symbolMeaning_awaitEop _ hs]
  refine ⟨fun heop => ?_, fun hne => ?_⟩
  · rw [show p.2 = kEop from heop, eopSymbol_kEop]
  · rw [eopSymbol_of_ne hne]

/-! ### The edges that only position the cursor (R191, R207) -/

theorem takeEdge_resetWait (t : Sample) {s : State} (hs : s.st = .resetWait) :
    takeEdge t s = .next (position t s) := by
  simp only [takeEdge, hs]

theorem takeEdge_done {t : Sample} {s : State} (hs : s.st = .done) (hle : s.cur ≤ t) :
    takeEdge t s = .next (skipTrailing t s) := by
  simp only [takeEdge, hs, if_neg (BitVec.not_lt.mpr hle)]

/-- Settles O34: the step takes the edge, whose only work is `position`, an entry into the
search. -/
theorem stepPositionsTheCursor : Obligations.StepPositionsTheCursor := by
  intro s e rest he hs
  rw [FrameSync.step_eq_takeEdge he (by simp [quiescent, hs]),
    takeEdge_resetWait e.t (s := consume e rest (clearEvents s)) hs, position,
    enterSearch_eq_searching]
  rfl

/-- Settles O35: the step takes the edge, whose only work is `skip_trailing`, an entry into the
search; its distance is not looked at. -/
theorem stepSkipsTheTrailingEdge : Obligations.StepSkipsTheTrailingEdge := by
  intro s e rest he hs hle
  rw [FrameSync.step_eq_takeEdge he (by simp [quiescent, hs]),
    takeEdge_done (s := consume e rest (clearEvents s)) hs hle, skipTrailing,
    enterSearch_eq_searching]
  rfl

end Sys2Proof.PacketFsm
end


section
/-! The family of 45_field_views.md: the variant of a Source PDO (R243, R247) and the fields of a Fixed
Supply (R244, R255). -/

namespace Sys2Proof.FieldViews

open Sys2Proof Sys2Proof.Machine

/-! ### The selecting fields of a PDO -/

/-- R240: a field as a quotient and a remainder, the form in which the obligations write it. -/
theorem extract_eq_div_mod (v msb lsb : Nat) :
    extract v msb lsb = v / 2 ^ lsb % 2 ^ (msb - lsb + 1) := by
  rw [extract, Nat.shiftRight_eq_div_pow]

/-- The tag is a word's top field, so its quotient is below 4 already. -/
theorem extract_pdo_tag (p : Word) : extract p.toNat 31 30 = p.toNat / 2 ^ 30 := by
  have hword : p.toNat < 2 ^ 32 := p.isLt
  rw [extract_eq_div_mod]
  exact Nat.mod_eq_of_lt (by omega)

theorem extract_pdo_subtype (p : Word) : extract p.toNat 29 28 = p.toNat / 2 ^ 28 % 4 :=
  extract_eq_div_mod p.toNat 29 28

/-! ### The variant they select (R243, R247) -/

section
variable {p : Word}

theorem pdoView_of_tag_zero (htag : p.toNat / 2 ^ 30 = 0) :
    pdoView p = .fixed (fixedSupply p.toNat) := by
  simp only [pdoView, pdoTag, extract_pdo_tag, htag]

theorem pdoView_of_tag_one (htag : p.toNat / 2 ^ 30 = 1) :
    pdoView p = .battery (batterySupply p.toNat) := by
  simp only [pdoView, pdoTag, extract_pdo_tag, htag]

theorem pdoView_of_tag_two (htag : p.toNat / 2 ^ 30 = 2) :
    pdoView p = .variableSupply (variableSupply p.toNat) := by
  simp only [pdoView, pdoTag, extract_pdo_tag, htag]

theorem pdoView_of_subtype_zero (htag : p.toNat / 2 ^ 30 = 3) (hsub : p.toNat / 2 ^ 28 % 4 = 0) :
    pdoView p = .sprPps (sprPps p.toNat) := by
  simp only [pdoView, pdoTag, extract_pdo_tag, extract_pdo_subtype, htag, hsub]

theorem pdoView_of_subtype_one (htag : p.toNat / 2 ^ 30 = 3) (hsub : p.toNat / 2 ^ 28 % 4 = 1) :
    pdoView p = .eprAvs (eprAvs p.toNat) := by
  simp only [pdoView, pdoTag, extract_pdo_tag, extract_pdo_subtype, htag, hsub]

/-- R247: the two subtypes left are both reserved. -/
theorem pdoView_of_two_le_subtype (htag : p.toNat / 2 ^ 30 = 3)
    (hsub : 2 ≤ p.toNat / 2 ^ 28 % 4) : pdoView p = .reserved p := by
  obtain ⟨n, hn⟩ := Nat.exists_eq_add_of_le' hsub
  simp only [pdoView, pdoTag, extract_pdo_tag, extract_pdo_subtype, htag, hn]

end

/-! ### The scaled fields of a Fixed Supply (R244, R255) -/

theorem fixedSupply_voltageMV (v : Nat) :
    (fixedSupply v).voltageMV = 50 * (v / 2 ^ 10 % 2 ^ 10) :=
  congrArg (50 * ·) (extract_eq_div_mod v 19 10)

theorem fixedSupply_maxCurrentMA (v : Nat) :
    (fixedSupply v).maxCurrentMA = 10 * (v % 2 ^ 10) := by
  have hfield : extract v 9 0 = v % 2 ^ 10 := by rw [extract_eq_div_mod, pow_zero, Nat.div_one]
  exact congrArg (10 * ·) hfield

/-- Settles O58: one case per variant; the tag and the subtype decide which. -/
theorem pdoViewFollowsItsTag : Obligations.PdoViewFollowsItsTag := by
  intro p
  exact ⟨fun htag => ⟨_, pdoView_of_tag_zero htag, fixedSupply_voltageMV _, fixedSupply_maxCurrentMA _⟩,
    fun htag => ⟨_, pdoView_of_tag_one htag⟩,
    fun htag => ⟨_, pdoView_of_tag_two htag⟩,
    fun htag hsub => ⟨_, pdoView_of_subtype_zero htag hsub⟩,
    fun htag hsub => ⟨_, pdoView_of_subtype_one htag hsub⟩,
    pdoView_of_two_le_subtype⟩

end Sys2Proof.FieldViews
end


section
/-! Encodings: the decoder and the encoder against each other (R81, R87, R88, R92, R196), the tolerant
match of an ordered set (R136) and the 4b5b table (R156). -/

namespace Sys2Proof.Encoding

open Sys2Proof Sys2Proof.Machine Sys2Proof.FrameSync Sys2Proof.PacketFsm

/-! ### The three formats of an instruction -/

/-- R82 to R96: an instruction is a symbol's, an ordered set's or a Header class's. -/
theorem instr_cases (i : Instr) :
    (∃ x, i = decodeSym x) ∨ (∃ v, i = variantInstr v) ∨ ∃ k h, i = kindInstr k h := by
  cases i
  case control h => exact .inr (.inr ⟨.control, h, rfl⟩)
  case sourceCapabilities h => exact .inr (.inr ⟨.srcCap, h, rfl⟩)
  case request h => exact .inr (.inr ⟨.request, h, rfl⟩)
  case vendorDefined h => exact .inr (.inr ⟨.vdm, h, rfl⟩)
  case otherData h => exact .inr (.inr ⟨.other, h, rfl⟩)
  case sop => exact .inr (.inl ⟨0, rfl⟩)
  case sopPrime => exact .inr (.inl ⟨1, rfl⟩)
  case sopDPrime => exact .inr (.inl ⟨2, rfl⟩)
  case sopPrimeDebug => exact .inr (.inl ⟨3, rfl⟩)
  case sopDPrimeDebug => exact .inr (.inl ⟨4, rfl⟩)
  all_goals exact .inl (by decide)

theorem encode_decodeSym (x : Sym) : encode (decodeSym x) = .sym5 x := by
  revert x; decide

theorem encode_variantInstr (v : Fin 5) :
    encode (variantInstr v) = .ordset20 (packSet (sopPattern v)) := by
  revert v; decide

theorem encode_kindInstr (k : Kind) (h : Header) : encode (kindInstr k h) = .hdr16 h := by
  cases k <;> rfl

theorem wf_decodeSym (c : Cfg) (x : Sym) : (decodeSym x).wf c = true := by
  obtain ⟨⟨k, hk⟩⟩ := x
  change k < 32 at hk
  interval_cases k <;> rfl

theorem wf_variantInstr (c : Cfg) (v : Fin 5) : (variantInstr v).wf c = true := by
  fin_cases v <;> rfl

theorem wf_kindInstr (c : Cfg) (k : Kind) (h : Header) :
    (kindInstr k h).wf c = (kind c h == k) := by
  cases k <;> rfl

/-! ### The tolerant match (R136) -/

/-- R88: two ordered sets of the table agree in at most 2 of their 4 places. -/
theorem sopScore_sopPattern (u v : Fin 5) :
    sopScore u (sopPattern v) = 4 ∧ u = v ∨ sopScore u (sopPattern v) ≤ 2 ∧ u ≠ v := by
  revert u v; decide

/-- R88, R136: at a threshold that tells the sets apart, each is classified as itself. -/
theorem sopClassify_sopPattern {c : Cfg} (h3 : 3 ≤ c.sopMatchThreshold) (h4 : c.sopMatchThreshold ≤ 4)
    (v : Fin 5) : sopClassify c (sopPattern v) = some v := by
  rw [sopClassify_eq_some_iff]
  refine ⟨?_, fun u hu => ?_⟩
  · rcases sopScore_sopPattern v v with ⟨hs, -⟩ | ⟨-, hne⟩
    · omega
    · exact absurd rfl hne
  · rcases sopScore_sopPattern u v with ⟨-, rfl⟩ | ⟨hs, -⟩
    · exact absurd hu (lt_irrefl u)
    · omega

/-- Settles O1: an instruction is of one of the three formats, and the decoder of each undoes the
encoder. -/
theorem decodeOfEncodeIsTheInstruction : Obligations.DecodeOfEncodeIsTheInstruction := by
  intro c i h3 h4 hwf
  obtain ⟨x, rfl⟩ | ⟨v, rfl⟩ | ⟨k, h, rfl⟩ := instr_cases i
  · rw [encode_decodeSym, decode]
  · rw [encode_variantInstr, decode, unpackSet_packSet, decodeSet, sopClassify_sopPattern h3 h4]
  · have hk : kind c h = k := by simpa [wf_kindInstr] using hwf
    rw [encode_kindInstr, decode, decodeHdr_eq_kindInstr, hk]

/-- Settles O2: by the format of the word. -/
theorem decodedInstructionEncodesItsWord : Obligations.DecodedInstructionEncodesItsWord := by
  intro c w i hd
  cases w with
  | sym5 x =>
    obtain rfl : decodeSym x = i := by simpa [decode] using hd
    exact ⟨wf_decodeSym c x, encode_decodeSym x⟩
  | hdr16 h =>
    obtain rfl : kindInstr (kind c h) h = i := by simpa [decode, decodeHdr_eq_kindInstr] using hd
    exact ⟨by simp [wf_kindInstr], encode_kindInstr _ h⟩
  | ordset20 os =>
    rw [decode, decodeSet] at hd
    cases hv : sopClassify c (unpackSet os) with
    | none => simp [hv] at hd
    | some v =>
      obtain rfl : variantInstr v = i := by simpa [hv] using hd
      obtain ⟨hat, hbelow⟩ := (sopClassify_eq_some_iff _ _ _).1 hv
      exact ⟨wf_variantInstr c v, v, rfl, encode_variantInstr v, hat, hbelow⟩

/-- R136: a variant at the threshold is classified as itself or a lower one. -/
theorem exists_sopClassify_le {c : Cfg} {rx : Vector Sym 4} {v : Fin 5}
    (h : c.sopMatchThreshold ≤ sopScore v rx) : ∃ u ≤ v, sopClassify c rx = some u := by
  cases hc : sopClassify c rx with
  | none => exact absurd ((sopClassify_eq_none_iff _ _).1 hc v) (by omega)
  | some u =>
    refine ⟨u, le_of_not_gt fun hlt => ?_, rfl⟩
    have := ((sopClassify_eq_some_iff _ _ _).1 hc).2 v hlt
    omega

/-- One symbol replaced leaves the other three places equal. -/
theorem three_le_sopScore_set (v : Fin 5) (k : Fin 4) (x : Sym) :
    3 ≤ sopScore v ((sopPattern v).set k x) := by
  revert v k x
  decide

/-- Settles O4: the intended variant still has three places, so it or a lower one is given. -/
theorem oneWrongSopSymbolIsTolerated : Obligations.OneWrongSopSymbolIsTolerated := fun _ v k x hc =>
  exists_sopClassify_le (hc.trans (three_le_sopScore_set v k x))

/-! ### The 4b5b table (R156) -/

theorem nibbleOf_enc4 (n : Nibble) : nibbleOf (enc4 n) = some n := by
  revert n; decide

/-- R151: a nibble is read only from its own symbol. -/
theorem enc4_of_nibbleOf {x : Sym} {n : Nibble} (h : nibbleOf x = some n) : enc4 n = x := by
  revert x n; decide

@[simp] theorem dec5_enc4 (c : Cfg) (n : Nibble) : dec5 c (enc4 n) = n.zeroExtend 8 := by
  rw [dec5, nibbleOf_enc4]

/-- Settles O5: a symbol has a nibble or none. -/
theorem fourBitFiveBitRoundTrip : Obligations.FourBitFiveBitRoundTrip := by
  intro c
  refine ⟨dec5_enc4 c, fun x => ?_, ?_⟩
  · cases hx : nibbleOf x with
    | some n => exact .inl ⟨n, (enc4_of_nibbleOf hx).symm, by rw [dec5, hx]⟩
    | none =>
      refine .inr ⟨fun n hn => ?_, by rw [dec5, hx]⟩
      rw [hn, nibbleOf_enc4] at hx
      cases hx
  · exact ⟨dec5_enc4 c 0, dec5_enc4 c 1, dec5_enc4 c 2, dec5_enc4 c 3, dec5_enc4 c 4, dec5_enc4 c 5,
      dec5_enc4 c 6, dec5_enc4 c 7, dec5_enc4 c 8, dec5_enc4 c 9, dec5_enc4 c 10, dec5_enc4 c 11,
      dec5_enc4 c 12, dec5_enc4 c 13, dec5_enc4 c 14, dec5_enc4 c 15⟩

/-- Settles O7: the table words are read and decoded one by one. -/
theorem writtenWordsDecode : Obligations.WrittenWordsDecode := by
  unfold Obligations.WrittenWordsDecode
  decide

end Sys2Proof.Encoding
end


section
/-! The engine of 43_crc32.md: chaining (R172), linearity (R176(a)) and the detection of an error in one
byte (R176(b)). -/

namespace Sys2Proof.CrcLaws

open Sys2Proof Sys2Proof.Machine Sys2Proof.Crc32

/-! ### Chaining (R172) -/

theorem crcUpdate_append (p s : Word) (a b : List Byte) :
    crcUpdate p (crcUpdate p s a) b = crcUpdate p s (a ++ b) := by
  simp only [crcUpdate, BitVec.not_not, List.foldl_append]

/-- Settles O8: the inner complement of the second update undoes the outer one of the first. -/
theorem crcChains : Obligations.CrcChains := crcUpdate_append

/-! ### Linearity (R176(a)) -/

theorem crcRound_xor (r a b : Word) :
    crcRound r (a ^^^ b) = crcRound r a ^^^ crcRound r b := by
  unfold crcRound
  rw [BitVec.getLsbD_xor, BitVec.ushiftRight_xor_distrib]
  cases a.getLsbD 0 <;> cases b.getLsbD 0
  · rfl
  · exact BitVec.xor_assoc ..
  · simp only [Bool.xor_false, if_true, Bool.false_eq_true, if_false]
    ac_rfl
  · simp only [Bool.xor_self, if_true, Bool.false_eq_true, if_false]
    calc a >>> 1 ^^^ b >>> 1 = a >>> 1 ^^^ b >>> 1 ^^^ (r ^^^ r) := by simp
      _ = a >>> 1 ^^^ r ^^^ (b >>> 1 ^^^ r) := by ac_rfl

theorem crcByte_xor (r a b : Word) (x y : Byte) :
    crcByte r (a ^^^ b) (x ^^^ y) = crcByte r a x ^^^ crcByte r b y := by
  have hin : a ^^^ b ^^^ (x ^^^ y).zeroExtend 32 = a ^^^ x.zeroExtend 32 ^^^ (b ^^^ y.zeroExtend 32) := by
    rw [show (x ^^^ y).zeroExtend 32 = x.zeroExtend 32 ^^^ y.zeroExtend 32 from BitVec.setWidth_xor]
    ac_rfl
  simp only [crcByte, hin, crcRound_xor]

/-- Three lists of equal length, fed from three states. -/
theorem foldl_crcByte_xor (r : Word) (l : List (Byte × Byte × Byte)) (a b c : Word) :
    (l.map fun x => x.1).foldl (crcByte r) a ^^^ (l.map fun x => x.2.1).foldl (crcByte r) b ^^^
        (l.map fun x => x.2.2).foldl (crcByte r) c =
      (l.map fun x => x.1 ^^^ x.2.1 ^^^ x.2.2).foldl (crcByte r) (a ^^^ b ^^^ c) := by
  induction l generalizing a b c with
  | nil => rfl
  | cons x l ih => simp only [List.map_cons, List.foldl_cons, ih, crcByte_xor]

theorem not_xor_not_xor_not (a b c : Word) : ~~~a ^^^ ~~~b ^^^ ~~~c = ~~~(a ^^^ b ^^^ c) := by
  simp only [← BitVec.not_xor_left, ← BitVec.not_xor_right, BitVec.not_not]

/-- Settles O9: the rounds are linear, and of three complements two cancel. -/
theorem crcIsAffine : Obligations.CrcIsAffine := by
  intro p s l
  refine ⟨BitVec.not_not, ?_⟩
  have hstate : ~~~s ^^^ ~~~s ^^^ ~~~s = ~~~s := by simp
  simp only [crcUpdate, not_xor_not_xor_not, foldl_crcByte_xor, hstate]

/-! ### An error in one byte (R176(b)) -/

/-- With the top bit of the reversed polynomial set, the bit shifted out shows in the top bit of the
result: a round loses nothing. -/
theorem crcRound_injective {r : Word} (hr : r.getLsbD 31 = true) :
    Function.Injective (crcRound r) := by
  have top : ∀ a, (crcRound r a).getLsbD 31 = a.getLsbD 0 := by
    intro a
    unfold crcRound
    cases h0 : a.getLsbD 0 <;> simp [hr]
  intro a b h
  have h0 : a.getLsbD 0 = b.getLsbD 0 := by rw [← top a, h, top b]
  have hshift : a >>> 1 = b >>> 1 := by
    unfold crcRound at h
    rw [h0] at h
    split at h
    · exact (BitVec.xor_left_inj _).1 h
    · exact h
  refine BitVec.eq_of_getLsbD_eq fun i hi => ?_
  cases i with
  | zero => exact h0
  | succ i => simpa [Nat.add_comm] using congrArg (BitVec.getLsbD · i) hshift

/-- The byte's two ways into a round: the state and the byte. -/
theorem crcByte_eq_iff {r : Word} (hr : r.getLsbD 31 = true) (a b : Word) (x y : Byte) :
    crcByte r a x = crcByte r b y ↔ a ^^^ x.zeroExtend 32 = b ^^^ y.zeroExtend 32 := by
  simp only [crcByte, (crcRound_injective hr).eq_iff]

theorem foldl_crcByte_injective {r : Word} (hr : r.getLsbD 31 = true) (l : List Byte) :
    Function.Injective fun a => l.foldl (crcByte r) a := by
  induction l with
  | nil => exact fun _ _ h => h
  | cons x l ih =>
    intro a b h
    have hx : crcByte r a x = crcByte r b x := ih h
    rwa [crcByte_eq_iff hr, BitVec.xor_left_inj] at hx

/-- Settles O10: the differing byte separates the states, and no later byte joins them again. -/
theorem crcSeesEverySingleByteError : Obligations.CrcSeesEverySingleByteError := by
  intro p s pre post x y hp hne h
  have hr : (bitReverse32 p).getLsbD 31 = true := by
    rw [getLsbD_bitReverse32 p (by decide)]
    exact hp
  simp only [crcUpdate, BitVec.not_inj, List.foldl_append, List.foldl_cons] at h
  have hxy := foldl_crcByte_injective hr post h
  rw [crcByte_eq_iff hr, BitVec.xor_right_inj] at hxy
  exact hne (by simpa using congrArg (BitVec.truncate 8) hxy)

end Sys2Proof.CrcLaws
end


section
/-! Rules of the shared operations that the laws of the step below go through: what the search and the
opening of a packet leave, what a data symbol emits and signals, every way an object of a message ends, and
what neither a bit of the search nor a symbol writes. -/

namespace Sys2Proof.Rules

open Sys2Proof Sys2Proof.Machine

/-! ### A data symbol's report (R153, R155) -/

/-- The Byte Frame of a byte completed by the value `n`: at its second symbol, with P14 (R155). -/
def byteFrames (n : Byte) (s : State) : List Frame :=
  if s.unitSym.getLsbD 0 && s.cfg.emitByteFrames then
    [⟨.byte, (byteOf s.nibLo n).zeroExtend 64, 0#64, s.byteStart, s.cur⟩] else []

@[simp] theorem dataSymbol_frames (n : Byte) (s : State) :
    (dataSymbol n s).frames = s.frames ++ byteFrames n s := by
  rw [dataSymbol_eq]
  rfl

@[simp] theorem dataSymbol_ev (n : Byte) (s : State) :
    (dataSymbol n s).ev = if n == s.cfg.invalidNibble then s.ev.assert .symInvalid else s.ev := by
  rw [dataSymbol_eq]

@[simp] theorem dataSymbol_byteStart (n : Byte) (s : State) :
    (dataSymbol n s).byteStart = if s.unitSym.getLsbD 0 then s.byteStart else s.symStart := by
  rw [dataSymbol_eq]

@[simp] theorem dataSymbol_acc (n : Byte) (s : State) :
    (dataSymbol n s).acc = if s.unitSym.getLsbD 0 then
      s.acc ||| bytePlace (byteOf s.nibLo n) (s.unitSym.toNat / 2) else s.acc := by
  rw [dataSymbol_eq]

@[simp] theorem dataSymbol_nibLo (n : Byte) (s : State) :
    (dataSymbol n s).nibLo = if s.unitSym.getLsbD 0 then s.nibLo else n := by
  rw [dataSymbol_eq]

/-- A Byte Frame carries a byte and nothing else, and is asked for (R97, R155). -/
theorem mem_byteFrames {n : Byte} {s : State} {f : Frame} (h : f ∈ byteFrames n s) :
    s.unitSym.getLsbD 0 = true ∧ s.cfg.emitByteFrames = true ∧
      f = ⟨.byte, (byteOf s.nibLo n).zeroExtend 64, 0#64, s.byteStart, s.cur⟩ := by
  unfold byteFrames at h
  split at h
  next hb =>
    rw [Bool.and_eq_true] at hb
    exact ⟨hb.1, hb.2, List.mem_singleton.1 h⟩
  next => cases h

/-! ### Entering the packet (R132, R137, R193, R194) -/

theorem sopFound_eq (v : BitVec 3) (s : State) :
    sopFound v s = { s with
      frames := s.frames ++ [⟨.sop, v.zeroExtend 64, 0#64, s.unitStart, s.cur⟩]
      sopType := v
      st := .awaitHeader
      crc := 0#32
      unitStart := s.cur
      unitSym := 0#3
      acc := 0#32 } := rfl

/-- R39: an index of the SOP table. -/
theorem toNat_variant_le (v : Fin 5) : (BitVec.ofNat 3 v).toNat ≤ 4 := by
  revert v; decide

theorem preambleFound_eq (s : State) :
    preambleFound s = { s with
      frames := s.frames ++ [⟨.preamble, 1#64, 0#64, s.preStart, s.cur⟩]
      st := .awaitSop
      symCnt := 0#3
      unitStart := s.cur
      unitSym := 0#3
      acc := 0#32 } := rfl

/-- R131, R133: the counted bit completes the run, is a cancellation point, or leaves the search. -/
theorem preambleBit_cases (b : Bool) (s : State) :
    ((preambleCount b s).preCnt.toNat = s.cfg.preambleRun ∧
      preambleBit b s = preambleFound (preambleCount b s)) ∨
    ((preambleCount b s).preCnt.toNat ≠ s.cfg.preambleRun ∧
      preambleBit b s = { preambleCount b s with st := if s.stopReq then .halted else s.st }) := by
  simp only [preambleBit, FrameSync.preambleCount_eq]
  by_cases hrun : (if b = s.preExp then s.preCnt + 1#6 else 0#6).toNat = s.cfg.preambleRun
  · exact .inl ⟨hrun, if_pos hrun⟩
  · refine .inr ⟨hrun, (if_neg hrun).trans ?_⟩
    cases hstop : s.stopReq <;> simp

/-! ### The end of the packet (R206, R209) -/

theorem sopError_eq_enterSearch (s : State) :
    sopError s = enterSearch s.cur
      (signal .sopError s.cur (emit .sopError 0#64 0#64 s.unitStart s.cur s)) := rfl

/-- R206: the EOP K-code leads to `DONE`, any other symbol to the search. -/
theorem eopSymbol_cases (x : Sym) (s : State) :
    (x = kEop ∧ eopSymbol x s = { emit .eop 1#64 0#64 s.symStart s.cur s with st := .done }) ∨
    (x ≠ kEop ∧ eopSymbol x s = enterSearch s.cur
      (signal .eopError s.cur (emit .eop 0#64 0#64 s.symStart s.cur s))) := by
  unfold eopSymbol eopMatch
  by_cases hx : x = kEop
  · exact .inl ⟨hx, if_pos (by simpa using hx)⟩
  · exact .inr ⟨hx, if_neg (by simpa using hx)⟩

/-! ### An object of a message (R197 to R202) -/

/-- Every way the class `k` of a message answers for the object `v` that started at `us`. -/
inductive ObjectCase (k : Kind) (v : Word) (us : Sample) (s t : State) : Prop where
  /-- A control message has no part (log 17). -/
  | silent (hk : k = .control) (ht : t = s)
  /-- A Source Capabilities object (R198). -/
  | stored (hk : k = .srcCap) (hi : s.objIndex.toNat < 7)
      (ht : t = { emit .sourcePdo (v.zeroExtend 64) 0#64 us s.cur s with
        pdoList := writePdo s.cfg s.objIndex.toNat v s.pdoList
        pdoCount := s.objIndex + 1#3 })
  /-- A Request whose reference is valid (R200). -/
  | resolved (p : Word) (hk : k = .request) (hi : s.objIndex = 0#3)
      (hp : pdoAt (objPos s.cfg v) s = some p)
      (ht : t = emit .requestDo (v.zeroExtend 64) (p.zeroExtend 64) us s.cur s)
  /-- A Request whose reference is not (R200). -/
  | unresolved (hk : k = .request) (hi : s.objIndex = 0#3) (hp : pdoAt (objPos s.cfg v) s = none)
      (ht : t = emit .requestDo (v.zeroExtend 64) refSentinel us s.cur (signal .refError s.cur s))
  /-- The VDM Header (R201). -/
  | vdmHeader (hk : k = .vdm) (hi : s.objIndex = 0#3)
      (ht : t = emit .vdmHeader (v.zeroExtend 64) 0#64 us s.cur s)
  /-- A generic object (R202): any but the first of a Request or a VDM, and all of another message. -/
  | generic (hk : k = .other ∨ (k = .request ∨ k = .vdm) ∧ s.objIndex ≠ 0#3)
      (ht : t = emit .dataObject (v.zeroExtend 64) 0#64 us s.cur s)

theorem objectPart_cases (k : Kind) (v : Word) (us : Sample) (s t : State)
    (h : objectPart k v us s = .next t) : ObjectCase k v us s t := by
  cases k with
  | control => exact .silent rfl (by cases h; rfl)
  | srcCap =>
    obtain ⟨hi, ht⟩ := sourcePdo_eq_next _ _ _ _ h
    exact .stored rfl hi ht
  | request =>
    obtain rfl : requestObject v us s = t := by cases h; rfl
    by_cases hi : s.objIndex = 0#3
    · unfold requestObject resolve
      rw [if_pos hi]
      cases hp : pdoAt (objPos s.cfg v) s with
      | some p => exact .resolved p rfl hi hp rfl
      | none => exact .unresolved rfl hi hp rfl
    · exact .generic (.inr ⟨.inl rfl, hi⟩) (if_neg hi)
  | vdm =>
    obtain rfl : vdmObject v us s = t := by cases h; rfl
    by_cases hi : s.objIndex = 0#3
    · exact .vdmHeader rfl hi (if_pos hi)
    · exact .generic (.inr ⟨.inr rfl, hi⟩) (if_neg hi)
  | other => exact .generic (.inl rfl) (by cases h; rfl)

/-- An object is answered unless it would be stored past the list's registers (log 11). -/
theorem objectPart_isNext (k : Kind) (v : Word) (us : Sample) (s : State)
    (h : s.objIndex.toNat < 7) : ∃ t, objectPart k v us s = .next t := by
  cases k with
  | srcCap => exact ⟨_, if_pos h⟩
  | control | request | vdm | other => exact ⟨_, rfl⟩

/-! ### What a bit of the search and a symbol leave -/

/-- The state in which a completed symbol is run: the last bit recovered and placed (R150). -/
def symbolReady (s : State) (e : Edge) (rest : List Edge) (b : Bool) (t0 : Sample) : State :=
  { afterBit s e rest b t0 with symSr := setSymBit s.symSr 4 b, symCnt := 0#3 }

/-- The bit recoverer, the inputs, the configuration and the markers are the same in both states. -/
structure SameRecovery (s t : State) : Prop where
  cur : t.cur = s.cur
  bph : t.bph = s.bph
  bitT0 : t.bitT0 = s.bitT0
  cfg : t.cfg = s.cfg
  input : t.input = s.input
  stopReq : t.stopReq = s.stopReq
  resetReq : t.resetReq = s.resetReq
  markers : t.markers = s.markers

theorem SameRecovery.trans {s t u : State} (h : SameRecovery s t) (g : SameRecovery t u) :
    SameRecovery s u :=
  ⟨g.1.trans h.1, g.2.trans h.2, g.3.trans h.3, g.4.trans h.4, g.5.trans h.5, g.6.trans h.6,
    g.7.trans h.7, g.8.trans h.8⟩

theorem sameRecovery_dataSymbol (n : Byte) (s : State) : SameRecovery s (dataSymbol n s) := by
  constructor <;> simp

theorem sameRecovery_preambleBit (b : Bool) (s : State) : SameRecovery s (preambleBit b s) := by
  have hcount : SameRecovery s (preambleCount b s) := by
    rw [FrameSync.preambleCount_eq]
    exact ⟨rfl, rfl, rfl, rfl, rfl, rfl, rfl, rfl⟩
  obtain ⟨-, h⟩ | ⟨-, h⟩ := preambleBit_cases b s <;> rw [h]
  · exact hcount.trans ⟨rfl, rfl, rfl, rfl, rfl, rfl, rfl, rfl⟩
  · exact hcount.trans ⟨rfl, rfl, rfl, rfl, rfl, rfl, rfl, rfl⟩

theorem sameRecovery_shiftBit (b : Bool) (t0 : Sample) (s : State) :
    SameRecovery s (shiftBit b t0 s) := by
  unfold shiftBit
  split <;> exact ⟨rfl, rfl, rfl, rfl, rfl, rfl, rfl, rfl⟩

theorem sameRecovery_objectDone {k : Kind} {s t : State}
    (h : objectDone (objectPart k) s = .next t) : SameRecovery s t := by
  obtain ⟨u, hu, rfl⟩ := (objectDone_eq_next _ _ _).1 h
  obtain ⟨fs, -, hu⟩ := objectPart_eq_next _ _ _ _ _ hu
  rw [nextObject_eq, hu]
  exact ⟨rfl, rfl, rfl, rfl, rfl, rfl, rfl, rfl⟩

theorem sameRecovery_runSymbol {s t : State} (h : runSymbol s = .next t) : SameRecovery s t := by
  have hdata := sameRecovery_dataSymbol (dec5 s.cfg s.symSr) s
  cases runSymbol_cases s t h with
  | idle hs ht => subst ht; exact ⟨rfl, rfl, rfl, rfl, rfl, rfl, rfl, rfl⟩
  | sopStored hs hk ht => subst ht; exact ⟨rfl, rfl, rfl, rfl, rfl, rfl, rfl, rfl⟩
  | sopAccepted v hs hk hv ht => subst ht; exact ⟨rfl, rfl, rfl, rfl, rfl, rfl, rfl, rfl⟩
  | sopRejected hs hk hv ht => subst ht; exact ⟨rfl, rfl, rfl, rfl, rfl, rfl, rfl, rfl⟩
  | data hs hl ht => subst ht; exact hdata
  | header hs hk ht =>
    subst ht
    rw [headerDone_eq]
    exact hdata.trans ⟨rfl, rfl, rfl, rfl, rfl, rfl, rfl, rfl⟩
  | object hs hk ht => exact hdata.trans (sameRecovery_objectDone ht)
  | trailer hs hk ht =>
    subst ht
    rw [crcDone_eq]
    exact hdata.trans ⟨rfl, rfl, rfl, rfl, rfl, rfl, rfl, rfl⟩
  | eop hs ht =>
    subst ht
    obtain ⟨-, h⟩ | ⟨-, h⟩ := eopSymbol_cases s.symSr s <;> rw [h] <;>
      exact ⟨rfl, rfl, rfl, rfl, rfl, rfl, rfl, rfl⟩

end Sys2Proof.Rules
end


section
/-! The step, case by case, as an equation: a reset, a hold, an edge that goes backwards, a mid-bit edge,
a bit placed in a symbol, and a symbol completed (R110, R112, R150, R287, R300). -/

namespace Sys2Proof.StepRules

open Sys2Proof Sys2Proof.Machine Sys2Proof.Rules Sys2Proof.FrameSync

/-! ### No edge is taken (R287, R300) -/

theorem step_eq_takeReset {s : State} {c : Cfg} (h : s.resetReq = some c) :
    step s = takeReset c s := by
  simp only [step, blockStep, h]

/-- R300(c): the check as the conditions it makes. -/
theorem admitted_iff (c : Cfg) : c.admitted = true ↔
    0 < c.bitRate ∧ 4 * c.bitRate ≤ c.sampleRate ∧ (c.msgTypeWidth = 4 ∨ c.msgTypeWidth = 5) ∧
      c.mtSourceCap < 2 ^ c.msgTypeWidth ∧ c.mtRequest < 2 ^ c.msgTypeWidth ∧
      c.mtVendor < 2 ^ c.msgTypeWidth ∧ c.objPosLsb + c.objPosWidth ≤ 32 := by
  simp [Cfg.admitted, and_assoc]

/-- Settles O38: the check of R300(c) decides between the reset state and the refusal. -/
theorem resetReinitialises : Obligations.ResetReinitialises := by
  intro s c hr ok
  have hok : c.admitted = true ↔ ok := admitted_iff c
  rw [step_eq_takeReset hr, takeReset]
  exact ⟨fun h => if_pos (hok.2 h), fun h => if_neg fun ha => h (hok.1 ha)⟩

/-- Settles O53: the reset reads its request and the two inputs it keeps. -/
theorem resetForgetsTheSession : Obligations.ResetForgetsTheSession := by
  intro s s' hr heq hinput hstop
  obtain ⟨c, hc⟩ := Option.ne_none_iff_exists'.1 hr
  rw [step_eq_takeReset hc, step_eq_takeReset (heq.trans hc), takeReset, takeReset, resetWith,
    resetWith, hinput, hstop]

/-- R287: with no edge, or quiescent, only the event outputs are written. -/
theorem step_eq_hold {s : State} (hr : s.resetReq = none)
    (h : s.input = [] ∨ s.st = .halted ∨ s.st = .faulted) : step s = .next (clearEvents s) := by
  simp only [step, blockStep, hr, edgeStep]
  by_cases hq : quiescent (clearEvents s) = true
  · rw [if_pos hq]
  · have hempty : (clearEvents s).input = [] := h.resolve_right fun hst => hq (by
      simpa [quiescent] using hst)
    rw [if_neg hq, hempty]

/-- Settles O37: the hold clears the event outputs, which the statement puts back. -/
theorem holdChangesNothing : Obligations.HoldChangesNothing := fun _ hr h =>
  ⟨_, step_eq_hold hr h, rfl⟩

/-! ### The edge at the head is taken (R110, R112, R119) -/

theorem quiescent_eq_false {s : State} (h1 : s.st ≠ .halted) (h2 : s.st ≠ .faulted) :
    quiescent s = false := by
  simp [quiescent, h1, h2]

theorem quiescent_eq_false_of_recovers {s : State} (h : s.st = .searchPreamble ∨ s.st.inPacket = true) :
    quiescent s = false := by
  apply quiescent_eq_false <;> rcases h with h | h <;> intro hst <;> simp [hst, St.inPacket] at h

/-- R119: in every state that compares the edge with the cursor. -/
theorem takeEdge_of_lt {t : Sample} {s : State} (hlt : t < s.cur) (h0 : s.st ≠ .resetWait)
    (h1 : s.st ≠ .halted) (h2 : s.st ≠ .faulted) : takeEdge t s = .next (inputFault t s) := by
  unfold takeEdge
  cases hst : s.st with
  | resetWait => exact absurd hst h0
  | halted => exact absurd hst h1
  | faulted => exact absurd hst h2
  | _ => exact if_pos hlt

/-- Settles O36: the step takes the edge, whose only work is `input_fault`. -/
theorem stepFaultsOnABackwardEdge : Obligations.StepFaultsOnABackwardEdge := by
  intro s e rest he hlt h0 h1 h2
  rw [step_eq_takeEdge he (quiescent_eq_false h1 h2),
    takeEdge_of_lt (s := consume e rest (clearEvents s)) hlt h0 h1 h2]
  rfl

/-- R112: the mid-bit transition, with the glitch flagged before. -/
theorem step_eq_enterMid {s : State} {e : Edge} {rest : List Edge} (he : edgeAt s e rest)
    (hs : s.st = .searchPreamble ∨ s.st.inPacket = true) (hle : s.cur ≤ e.t) (hb : s.bph = .boundary)
    (hw : oneWindow s.cfg (interval s.cur e.t) = true) :
    step s = .next (enterMid e.t (signalIf (glitchFloor s.cfg (interval s.cur e.t)) .glitch e.t
      (consume e rest (clearEvents s)))) := by
  obtain ⟨hboundary, -⟩ :=
    takeEdge_eq_by_phase (s := consume e rest (clearEvents s)) (t := e.t) hs hle
  rw [step_eq_takeEdge he (quiescent_eq_false_of_recovers hs), hboundary hb]
  exact if_pos hw

/-- Settles O30: the mid-bit transition field by field. -/
theorem stepTakesAMidBitEdge : Obligations.StepTakesAMidBitEdge := by
  intro s e rest he hs hle hb hw
  rw [step_eq_enterMid he hs hle hb hw]
  cases hg : glitchFloor s.cfg (interval s.cur e.t) <;>
    simp [signalIf, signal, enterMid, consume, clearEvents, glitches, hb, hg, Events.assert, Events.none]

/-- R112, R113: an edge at or after the cursor opens a one or closes a bit. -/
theorem midBit_or_closes (s : State) (e : Edge) :
    (s.bph = .boundary ∧ oneWindow s.cfg (interval s.cur e.t) = true) ∨ ∃ b t0, closes s e b t0 := by
  cases hb : s.bph with
  | mid => exact .inr ⟨_, _, .inl ⟨hb, rfl, rfl⟩⟩
  | boundary =>
    cases hw : oneWindow s.cfg (interval s.cur e.t) with
    | true => exact .inl ⟨rfl, rfl⟩
    | false => exact .inr ⟨_, _, .inr ⟨hb, hw, rfl, rfl⟩⟩

/-! ### A bit of a symbol (R115, R150) -/

theorem deliverBit_of_inPacket {s : State} (hs : s.st.inPacket = true) (b : Bool) (t0 : Sample) :
    deliverBit b t0 s = symbolBit b t0 s := by
  unfold deliverBit
  cases hst : s.st <;> simp_all [St.inPacket]

/-- R150: one of the first four bits is placed and counted. -/
theorem symbolBit_of_lt {s : State} (hn : s.symCnt.toNat < 4) (b : Bool) (t0 : Sample) :
    symbolBit b t0 s = .next (shiftBit b t0 s) := by
  have hne : (shiftBit b t0 s).symCnt ≠ 5#3 := by
    rw [Memory.shiftBit_symCnt]
    bv_omega
  rw [symbolBit, if_pos (by omega)]
  exact if_neg hne

/-- R150: the fifth bit completes the symbol, which is run. -/
theorem symbolBit_of_eq {s : State} (hn : s.symCnt = 4#3) (b : Bool) (t0 : Sample) :
    symbolBit b t0 s = runSymbol { s with symSr := setSymBit s.symSr 4 b, symCnt := 0#3 } := by
  simp [symbolBit, shiftBit, hn]

section
variable {s : State} {e : Edge} {rest : List Edge} {b : Bool} {t0 : Sample}

theorem step_eq_shiftBit (he : edgeAt s e rest) (hs : s.st.inPacket = true) (hle : s.cur ≤ e.t)
    (hn : s.symCnt.toNat < 4) (hc : closes s e b t0) :
    step s = .next (shiftBit b t0 (afterBit s e rest b t0)) := by
  rw [step_eq_deliverBit he (.inr hs) hle hc, deliverBit_of_inPacket (s := afterBit s e rest b t0) hs,
    symbolBit_of_lt (s := afterBit s e rest b t0) hn]

theorem step_eq_runSymbol (he : edgeAt s e rest) (hs : s.st.inPacket = true) (hle : s.cur ≤ e.t)
    (hn : s.symCnt = 4#3) (hc : closes s e b t0) :
    step s = runSymbol (symbolReady s e rest b t0) := by
  rw [step_eq_deliverBit he (.inr hs) hle hc, deliverBit_of_inPacket (s := afterBit s e rest b t0) hs,
    symbolBit_of_eq (s := afterBit s e rest b t0) hn]
  rfl

end

/-- Settles O29: the bit is delivered to the symbol, which places it. -/
theorem stepPlacesASymbolBit : Obligations.StepPlacesASymbolBit := by
  intro s e rest b t0 he hs hle hn hc
  rw [step_eq_shiftBit he hs hle hn hc, shiftBit]
  by_cases h0 : s.symCnt = 0#3 <;> simp [h0, afterBit]

/-- Settles O27: the bit is delivered to the symbol, which it completes. -/
theorem stepRunsTheDecodedSymbol : Obligations.StepRunsTheDecodedSymbol :=
  fun _ _ _ _ _ he hs hle hn hc => step_eq_runSymbol he hs hle hn hc

/-- Settles O28: the unit runs what the decoder answers for the Header. -/
theorem unitRunsTheDecodedHeader : Obligations.UnitRunsTheDecodedHeader := fun s =>
  ⟨fun hs => ⟨rfl, by simp only [runUnit, hs]⟩, fun hs => ⟨rfl, by simp only [runUnit, hs]⟩⟩

/-! ### What a step does not read (R117, R214) -/

/-- Settles O52: the edge taken is consumed whole, and only its sample and its `stop_req` level go on. -/
theorem edgeLevelIsNeverRead : Obligations.EdgeLevelIsNeverRead := by
  intro s e rest b he h1 h2
  have he' : edgeAt { s with input := { e with lvl := b } :: rest } { e with lvl := b } rest :=
    ⟨he.1, rfl⟩
  rw [step_eq_takeEdge he (quiescent_eq_false h1 h2), step_eq_takeEdge he' (quiescent_eq_false h1 h2)]
  rfl

end Sys2Proof.StepRules
end


section
/-! The level of `stop_req` between the SOP and the EOP (R214): no operation of a data state reads it. -/

namespace Sys2Proof.StopRequest

open Sys2Proof Sys2Proof.Machine Sys2Proof.Rules Sys2Proof.FrameSync Sys2Proof.StepRules

/-! ### A completed symbol in a data state -/

/-- R153, R154: the symbol is taken as data, and the unit follows its last. -/
theorem runSymbol_of_inData {s : State} (hs : s.st.inData = true) :
    runSymbol s = if lastOfUnit s then runUnit (afterData s) else .next (afterData s) := by
  unfold runSymbol
  rw [exec_decodeSym]
  unfold symbolMeaning
  cases hst : s.st <;> simp_all [St.inData]

theorem inPacket_of_inData {y : St} (h : y.inData = true) : y.inPacket = true := by
  revert h
  cases y <;> decide

/-! ### The same operation at another level -/

/-- The state at another level of `stop_req`. -/
def withStop (b : Bool) (s : State) : State := { s with stopReq := b }

theorem dataSymbol_withStop (b : Bool) (n : Byte) (s : State) :
    dataSymbol n (withStop b s) = withStop b (dataSymbol n s) := by
  rw [dataSymbol_eq, dataSymbol_eq]
  rfl

theorem headerDone_withStop (b k : Bool) (h : Header) (s : State) :
    headerDone k h (withStop b s) = withStop b (headerDone k h s) := by
  rw [headerDone_eq, headerDone_eq]
  rfl

theorem crcDone_withStop (b : Bool) (s : State) : crcDone (withStop b s) = withStop b (crcDone s) := by
  rw [crcDone_eq, crcDone_eq]
  rfl

theorem objectPart_withStop (b : Bool) (k : Kind) (v : Word) (us : Sample) (s : State) :
    objectPart k v us (withStop b s) =
      andThen (objectPart k v us s) fun t => .next (withStop b t) := by
  cases k with
  | control | other => rfl
  | srcCap =>
    show sourcePdo v us (withStop b s) = andThen (sourcePdo v us s) fun t => .next (withStop b t)
    by_cases hi : s.objIndex.toNat < 7
    · rw [sourcePdo, sourcePdo, if_pos hi]
      exact if_pos hi
    · rw [sourcePdo, sourcePdo, if_neg hi]
      exact if_neg hi
  | request =>
    have hat : pdoAt (objPos s.cfg v) (withStop b s) = pdoAt (objPos s.cfg v) s := rfl
    refine congrArg Host.Outcome.next ?_
    by_cases hi : s.objIndex = 0#3
    · rw [requestObject, requestObject, if_pos hi]
      refine (if_pos hi).trans ?_
      simp only [resolve, show (withStop b s).cfg = s.cfg from rfl, hat]
      cases pdoAt (objPos s.cfg v) s <;> rfl
    · rw [requestObject, requestObject, if_neg hi]
      exact if_neg hi
  | vdm =>
    refine congrArg Host.Outcome.next ?_
    rw [PacketFsm.vdmObject_eq, PacketFsm.vdmObject_eq]
    rfl

theorem objectDone_withStop (b : Bool) (k : Kind) (s : State) :
    objectDone (objectPart k) (withStop b s) =
      andThen (objectDone (objectPart k) s) fun t => .next (withStop b t) := by
  have hpart := objectPart_withStop b k s.acc s.unitStart (PacketFsm.coverObject s)
  have hleft : objectDone (objectPart k) (withStop b s) =
      andThen (objectPart k s.acc s.unitStart (withStop b (PacketFsm.coverObject s)))
        fun u => .next (nextObject u) := rfl
  have hright : objectDone (objectPart k) s =
      andThen (objectPart k s.acc s.unitStart (PacketFsm.coverObject s))
        fun u => .next (nextObject u) := rfl
  rw [hleft, hright, hpart]
  cases objectPart k s.acc s.unitStart (PacketFsm.coverObject s) with
  | next u =>
    simp only [andThen_next, nextObject_eq]
    rfl
  | fault e => rfl
  | refused e => rfl

/-- R214: the units of the data states do not read the level. -/
theorem runUnit_withStop {s : State} (hs : s.st.inData = true) (b : Bool) :
    runUnit (withStop b s) = andThen (runUnit s) fun t => .next (withStop b t) := by
  cases hst : s.st with
  | awaitHeader =>
    rw [runUnit_awaitHeader s hst, runUnit_awaitHeader (withStop b s) hst, headerDone_withStop]
    rfl
  | readPayload =>
    rw [runUnit_readPayload s hst, runUnit_readPayload (withStop b s) hst]
    exact objectDone_withStop b _ s
  | awaitCrc =>
    rw [runUnit_awaitCrc s hst, runUnit_awaitCrc (withStop b s) hst, crcDone_withStop]
    rfl
  | _ => simp [hst, St.inData] at hs

theorem runSymbol_withStop {s : State} (hs : s.st.inData = true) (b : Bool) :
    runSymbol (withStop b s) = andThen (runSymbol s) fun t => .next (withStop b t) := by
  have hafter : afterData (withStop b s) = withStop b (afterData s) := dataSymbol_withStop b _ s
  rw [runSymbol_of_inData hs, runSymbol_of_inData (s := withStop b s) hs, hafter]
  cases hl : lastOfUnit s with
  | false => exact if_neg (by simpa [lastOfUnit, withStop] using hl)
  | true =>
    refine (if_pos hl).trans ?_
    rw [runUnit_withStop (by simpa using hs)]
    rfl

theorem symbolBit_withStop {s : State} (hs : s.st.inData = true) (b v : Bool) (t0 : Sample) :
    symbolBit v t0 (withStop b s) = andThen (symbolBit v t0 s) fun t => .next (withStop b t) := by
  rcases lt_trichotomy s.symCnt.toNat 4 with hn | hn | hn
  · rw [symbolBit_of_lt hn, symbolBit_of_lt (s := withStop b s) hn]
    simp only [shiftBit, andThen_next]
    by_cases h0 : s.symCnt = 0#3 <;> simp [h0, withStop]
  · have h4 : s.symCnt = 4#3 := BitVec.eq_of_toNat_eq hn
    rw [symbolBit_of_eq h4, symbolBit_of_eq (s := withStop b s) h4]
    exact runSymbol_withStop (s := { s with symSr := setSymBit s.symSr 4 v, symCnt := 0#3 }) hs b
  · rw [symbolBit, symbolBit, if_neg (show ¬ s.symCnt.toNat < 5 by omega)]
    exact if_neg (show ¬ s.symCnt.toNat < 5 by omega)

/-- Settles O51: an edge in a data state goes backwards, opens a one, or gives a bit to the symbol in
hand. -/
theorem stopRequestIsIgnoredInsideAPacket : Obligations.StopRequestIsIgnoredInsideAPacket := by
  intro s e rest b he hs
  have hp := inPacket_of_inData hs
  have he' : edgeAt { s with input := { e with stopReq := b } :: rest } { e with stopReq := b } rest :=
    ⟨he.1, rfl⟩
  by_cases hlt : e.t < s.cur
  · have hst : s.st ≠ .resetWait ∧ s.st ≠ .halted ∧ s.st ≠ .faulted := by
      cases hst : s.st <;> simp_all [St.inData]
    obtain ⟨h0, h1, h2⟩ := hst
    rw [stepFaultsOnABackwardEdge _ _ _ he hlt h0 h1 h2,
      stepFaultsOnABackwardEdge _ _ _ he' hlt h0 h1 h2]
    rfl
  have hle : s.cur ≤ e.t := BitVec.not_lt.mp hlt
  rcases midBit_or_closes s e with ⟨hb, hw⟩ | ⟨v, t0, hc⟩
  · rw [step_eq_enterMid he (.inr hp) hle hb hw, step_eq_enterMid he' (.inr hp) hle hb hw]
    cases glitchFloor s.cfg (interval s.cur e.t) <;>
      simp [signalIf, signal, enterMid, consume, clearEvents]
  · have hc' : closes { s with input := { e with stopReq := b } :: rest } { e with stopReq := b } v t0 :=
      hc
    rw [step_eq_deliverBit he (.inr hp) hle hc, step_eq_deliverBit he' (.inr hp) hle hc',
      deliverBit_of_inPacket (s := afterBit s e rest v t0) hp]
    refine (deliverBit_of_inPacket (s := withStop b (afterBit s e rest v t0)) hp v t0).trans ?_
    exact symbolBit_withStop (s := afterBit s e rest v t0) hs b v t0

end Sys2Proof.StopRequest
end


section
/-! The control invariant (R45): every step keeps it, it holds at the start of a session, and under it a
step stops for an inadmissible reset only (R310). -/

namespace Sys2Proof.Control

open Sys2Proof Sys2Proof.Machine Sys2Proof.Rules

/-! ### States with the invariant -/

/-- In a packet state the clauses about the search and the idle states are empty. -/
theorem controlInv_of_inPacket {s : State} (hs : s.st.inPacket = true) (hcnt : s.symCnt.toNat ≤ 4)
    (hunit : s.st = .awaitSop ∨ s.st = .awaitHeader → s.unitSym.toNat ≤ 3)
    (hobj : s.st = .readPayload → 1 ≤ s.remaining.toNat ∧
      s.objIndex.toNat + s.remaining.toNat = (ndo s.hdr).toNat)
    (hsop : s.sopType.toNat ≤ 4) : ControlInv s where
  symCnt_le := hcnt
  symCnt_zero hp := absurd hs (by simp [hp])
  bph_boundary h := by rcases h with h | h <;> simp [h, St.inPacket] at hs
  preCnt_lt h := by simp [h, St.inPacket] at hs
  preExp_parity h := by simp [h, St.inPacket] at hs
  unitSym_le := hunit
  remaining_pos h := (hobj h).1
  progress h := (hobj h).2
  sopType_le := hsop

/-- An entry into the search has the invariant between symbols: it clears the count (R130). -/
theorem controlInv_enterSearch {s : State} (t : Sample) (hcnt : s.symCnt = 0#3)
    (hsop : s.sopType.toNat ≤ 4) : ControlInv (enterSearch t s) := by
  have hst : (enterSearch t s).st = .halted ∨ (enterSearch t s).st = .searchPreamble := by
    rcases searchState_cases s.stopReq with ⟨-, h⟩ | ⟨-, h⟩
    · exact .inl h
    · exact .inr h
  refine ⟨by simp [hcnt], fun _ _ => hcnt, ?_, fun _ h => h, fun _ => rfl, ?_, ?_, ?_, hsop⟩ <;>
    rcases hst with h | h <;> simp only [h] <;> simp

theorem controlInv_resetWith (c : Cfg) (s : State) : ControlInv (resetWith c s) where
  symCnt_le := Nat.zero_le _
  symCnt_zero _ _ := rfl
  bph_boundary _ := rfl
  preCnt_lt h := by cases h
  preExp_parity h := by cases h
  unitSym_le h := by rcases h with h | h <;> cases h
  remaining_pos h := by cases h
  progress h := by cases h
  sopType_le := Nat.zero_le _

/-- In `FAULTED` the bounds of two registers remain (log 16). -/
theorem controlInv_of_faulted {s : State} (hs : s.st = .faulted) (hcnt : s.symCnt.toNat ≤ 4)
    (hsop : s.sopType.toNat ≤ 4) : ControlInv s := by
  refine ⟨hcnt, fun _ h => absurd hs h, ?_, ?_, ?_, ?_, ?_, ?_, hsop⟩ <;> simp [hs]

/-! ### The preservation of the invariant, by what the step does -/

theorem controlInv_hold {s : State} (h : ControlInv s) : ControlInv (clearEvents s) :=
  ⟨h.symCnt_le, h.symCnt_zero, h.bph_boundary, h.preCnt_lt, h.preExp_parity, h.unitSym_le,
    h.remaining_pos, h.progress, h.sopType_le⟩

/-- A recovered bit and a mid-bit edge leave the registers of the invariant but the phase, which only
the states that recover no bit constrain. -/
theorem controlInv_of_recovery {s t : State} (h : ControlInv s)
    (hs : s.st = .searchPreamble ∨ s.st.inPacket = true)
    (ht : ∃ cur bph bitT0 ev stopReq input markers trace, t = { s with
      cur := cur, bph := bph, bitT0 := bitT0, ev := ev, stopReq := stopReq, input := input
      markers := markers, trace := trace }) : ControlInv t := by
  obtain ⟨cur, bph, bitT0, ev, stopReq, input, markers, trace, rfl⟩ := ht
  refine ⟨h.symCnt_le, h.symCnt_zero, fun hb => ?_, h.preCnt_lt, h.preExp_parity, h.unitSym_le,
    h.remaining_pos, h.progress, h.sopType_le⟩
  rcases hb with hb | hb <;> rcases hs with hs | hs <;> simp_all [St.inPacket]

theorem controlInv_afterBit {s : State} (h : ControlInv s)
    (hs : s.st = .searchPreamble ∨ s.st.inPacket = true) (e : Edge) (rest : List Edge) (b : Bool)
    (t0 : Sample) : ControlInv (afterBit s e rest b t0) :=
  controlInv_of_recovery h hs ⟨_, _, _, _, _, _, _, _, rfl⟩

theorem controlInv_enterMid {s : State} (h : ControlInv s)
    (hs : s.st = .searchPreamble ∨ s.st.inPacket = true) (t : Sample) (g : Bool) (e : Edge)
    (rest : List Edge) :
    ControlInv (enterMid t (signalIf g .glitch t (consume e rest (clearEvents s)))) := by
  refine controlInv_of_recovery h hs ?_
  cases g <;> exact ⟨_, _, _, _, _, _, _, _, rfl⟩

/-- R131: a bit that does not complete the run leaves the count below it, and the expectation in step
with the count. -/
theorem controlInv_preambleBit {s : State} (h : ControlInv s) (hs : s.st = .searchPreamble) (b : Bool) :
    ControlInv (preambleBit b s) := by
  have hzero : s.symCnt = 0#3 := h.symCnt_zero (by simp [hs, St.inPacket]) (by simp [hs])
  have hlt := h.preCnt_lt hs
  have hparity := h.preExp_parity hs
  have hwrap : (s.preCnt + 1#6).toNat = (s.preCnt.toNat + 1) % 64 := BitVec.toNat_add ..
  obtain ⟨-, hb⟩ | ⟨hrun, hb⟩ := preambleBit_cases b s <;> rw [hb]
  · rw [preambleFound_eq, FrameSync.preambleCount_eq]
    exact controlInv_of_inPacket rfl (Nat.zero_le _) (fun _ => Nat.zero_le _) (fun hr => by cases hr)
      h.sopType_le
  · rw [FrameSync.preambleCount_eq] at hrun ⊢
    have hst : (if s.stopReq then St.halted else s.st) = .halted ∨
        (if s.stopReq then St.halted else s.st) = .searchPreamble := by
      cases s.stopReq <;> simp [hs]
    refine ⟨by simp [hzero], fun _ _ => hzero, ?_, fun _ hpos => ?_, fun _ => ?_, ?_, ?_, ?_,
      h.sopType_le⟩
    · rcases hst with h | h <;> simp [h]
    · dsimp only at hrun hpos ⊢
      have := hlt hpos
      split at hrun
      next hbit =>
        rw [if_pos hbit]
        omega
      next hbit =>
        rw [if_neg hbit]
        exact hpos
    · dsimp only
      split
      · rw [hparity, hwrap, ← decide_not, decide_eq_decide]
        omega
      · rfl
    all_goals rcases hst with h | h <;> simp [h]

/-- R150: a bit that is not the last of its symbol is counted. -/
theorem controlInv_shiftBit {s : State} (h : ControlInv s) (hs : s.st.inPacket = true)
    (hn : s.symCnt.toNat < 4) (b : Bool) (t0 : Sample) : ControlInv (shiftBit b t0 s) := by
  have hcnt : (s.symCnt + 1#3).toNat ≤ 4 := by
    have : (s.symCnt + 1#3).toNat = (s.symCnt.toNat + 1) % 8 := BitVec.toNat_add ..
    omega
  unfold shiftBit
  split <;>
    exact controlInv_of_inPacket hs hcnt h.unitSym_le (fun hr => ⟨h.remaining_pos hr, h.progress hr⟩)
      h.sopType_le

/-- R197, R204: an object counted leaves the one after it in hand, or ends the payload. -/
theorem controlInv_nextObject {s : State} (h : ControlInv s) (hs : s.st = .readPayload) :
    ControlInv (nextObject s) := by
  have hpos := h.remaining_pos hs
  have hprog := h.progress hs
  have hndo := (ndo s.hdr).isLt
  rw [nextObject_eq]
  by_cases hlast : s.remaining - 1#3 = 0#3
  · rw [if_pos hlast]
    exact controlInv_of_inPacket rfl h.symCnt_le (fun _ => by simp) (fun hr => by cases hr)
      h.sopType_le
  · rw [if_neg hlast]
    refine controlInv_of_inPacket (by simp [hs, St.inPacket]) h.symCnt_le (fun _ => by simp)
      (fun _ => ?_) h.sopType_le
    have hrem : (s.remaining - 1#3).toNat = s.remaining.toNat - 1 :=
      BitVec.toNat_sub_of_le (by simpa [BitVec.le_def] using hpos)
    have hne : (s.remaining - 1#3).toNat ≠ 0 := fun h0 => hlast (BitVec.eq_of_toNat_eq h0)
    have hidx : (s.objIndex + 1#3).toNat = (s.objIndex.toNat + 1) % 8 := BitVec.toNat_add ..
    dsimp only
    omega

theorem controlInv_headerDone {s : State} (hcnt : s.symCnt.toNat ≤ 4) (hsop : s.sopType.toNat ≤ 4)
    (k : Bool) (hdr : Header) : ControlInv (headerDone k hdr s) := by
  rw [headerDone_eq]
  by_cases h0 : ndo hdr = 0#3
  · rw [if_pos h0]
    exact controlInv_of_inPacket rfl hcnt (fun _ => by simp) (fun hr => by cases hr)
      hsop
  · rw [if_neg h0]
    have hpos : (ndo hdr).toNat ≠ 0 := fun hz => h0 (BitVec.eq_of_toNat_eq hz)
    exact controlInv_of_inPacket rfl hcnt (fun _ => by simp)
      (fun _ => ⟨by dsimp only; omega, Nat.zero_add _⟩) hsop

theorem controlInv_objectPart {k : Kind} {v : Word} {us : Sample} {s t : State} (h : ControlInv s)
    (ht : objectPart k v us s = .next t) : ControlInv t ∧ t.st = s.st := by
  obtain ⟨fs, -, ht⟩ := objectPart_eq_next _ _ _ _ _ ht
  rw [ht]
  exact ⟨⟨h.symCnt_le, h.symCnt_zero, h.bph_boundary, h.preCnt_lt, h.preExp_parity, h.unitSym_le,
    h.remaining_pos, h.progress, h.sopType_le⟩, rfl⟩

/-- R153: a data symbol is counted; in the Header the count stays below the unit's 4 before the last
symbol. -/
theorem controlInv_dataSymbol {s : State} (h : ControlInv s) (hs : s.st.inData = true)
    (hlast : s.st = .awaitHeader → s.unitSym.toNat < 3) (n : Byte) : ControlInv (dataSymbol n s) := by
  refine controlInv_of_inPacket ?_ (by simpa using h.symCnt_le) ?_ ?_ (by simpa using h.sopType_le)
  · cases hst : s.st <;> simp_all [St.inData, St.inPacket]
  · simp only [dataSymbol_st, dataSymbol_unitSym]
    rintro (hh | hh)
    · simp [hh, St.inData] at hs
    · have : (s.unitSym + 1#3).toNat = (s.unitSym.toNat + 1) % 8 := BitVec.toNat_add ..
      have := hlast hh
      omega
  · simp only [dataSymbol_st, dataSymbol_remaining, dataSymbol_objIndex, dataSymbol_hdr]
    exact fun hr => ⟨h.remaining_pos hr, h.progress hr⟩

/-- A completed symbol keeps the invariant: every unit it ends opens the next one. -/
theorem controlInv_runSymbol {s t : State} (h : ControlInv s) (hzero : s.symCnt = 0#3)
    (hbph : s.bph = .boundary) (ht : runSymbol s = .next t) : ControlInv t := by
  cases runSymbol_cases s t ht with
  | idle hs ht => exact ht ▸ h
  | sopStored hs hk ht =>
    subst ht
    refine controlInv_of_inPacket (by simp [hs, St.inPacket]) h.symCnt_le (fun _ => ?_)
      (fun hr => by simp [hs] at hr) h.sopType_le
    have : (s.unitSym + 1#3).toNat = (s.unitSym.toNat + 1) % 8 := BitVec.toNat_add ..
    dsimp only
    omega
  | sopAccepted v hs hk hv ht =>
    subst ht
    rw [sopFound_eq]
    refine controlInv_of_inPacket rfl h.symCnt_le (fun _ => by simp) (fun hr => by cases hr)
      (toNat_variant_le v)
  | sopRejected hs hk hv ht =>
    subst ht
    rw [sopError_eq_enterSearch]
    exact controlInv_enterSearch _ hzero h.sopType_le
  | data hs hl ht =>
    subst ht
    refine controlInv_dataSymbol h hs (fun hh => ?_) _
    have h3 := h.unitSym_le (.inr hh)
    simp only [lastOfUnit, unitSyms, hh, beq_eq_false_iff_ne, ne_eq, Option.some.injEq] at hl
    omega
  | header hs hk ht =>
    subst ht
    exact controlInv_headerDone (by simpa using h.symCnt_le) (by simpa using h.sopType_le) _ _
  | object hs hk ht =>
    obtain ⟨u, hu, rfl⟩ := (objectDone_eq_next _ _ _).1 ht
    have hdata : ControlInv (afterData s) :=
      controlInv_dataSymbol h (by simp [hs, St.inData]) (fun hh => by simp [hs] at hh) _
    have hcover : ControlInv (PacketFsm.coverObject (afterData s)) :=
      ⟨hdata.symCnt_le, hdata.symCnt_zero, hdata.bph_boundary, hdata.preCnt_lt, hdata.preExp_parity,
        hdata.unitSym_le, hdata.remaining_pos, hdata.progress, hdata.sopType_le⟩
    obtain ⟨hinv, hst⟩ := controlInv_objectPart hcover hu
    exact controlInv_nextObject hinv (hst.trans (by simp [PacketFsm.coverObject, hs]))
  | trailer hs hk ht =>
    subst ht
    rw [crcDone_eq]
    exact controlInv_of_inPacket rfl (by simpa using h.symCnt_le) (fun _ => by simp)
      (fun hr => by cases hr) (by simpa using h.sopType_le)
  | eop hs ht =>
    subst ht
    obtain ⟨-, heop⟩ | ⟨-, heop⟩ := eopSymbol_cases s.symSr s <;> rw [heop]
    · refine ⟨h.symCnt_le, fun _ _ => hzero, fun _ => hbph, ?_, ?_, ?_, ?_, ?_, h.sopType_le⟩ <;> simp
    · exact controlInv_enterSearch _ hzero h.sopType_le

theorem controlInv_symbolReady {s : State} (h : ControlInv s) (hs : s.st.inPacket = true) (e : Edge)
    (rest : List Edge) (b : Bool) (t0 : Sample) : ControlInv (symbolReady s e rest b t0) :=
  controlInv_of_inPacket hs (Nat.zero_le _) h.unitSym_le
    (fun hr => ⟨h.remaining_pos hr, h.progress hr⟩) h.sopType_le

/-- Settles O39: by what the step does. -/
theorem stepKeepsControlInvariant : Obligations.StepKeepsControlInvariant := by
  intro s t h hstep
  cases step_cases s t hstep with
  | reset c hr ha ht => exact ht ▸ controlInv_resetWith c s
  | hold hr hq ht => exact ht ▸ controlInv_hold h
  | position e rest he hs ht =>
    subst ht
    exact controlInv_enterSearch _ (h.symCnt_zero (by simp [hs, St.inPacket]) (by simp [hs]))
      h.sopType_le
  | backward e rest he hs hlt ht =>
    subst ht
    exact controlInv_of_faulted rfl h.symCnt_le h.sopType_le
  | trailing e rest he hs hle ht =>
    subst ht
    exact controlInv_enterSearch _ (h.symCnt_zero (by simp [hs, St.inPacket]) (by simp [hs]))
      h.sopType_le
  | midBit e rest he hs hle hb hw ht => exact ht ▸ controlInv_enterMid h hs _ _ e rest
  | searchBit e rest b t0 he hs hle hc ht =>
    exact ht ▸ controlInv_preambleBit (controlInv_afterBit h (.inl hs) e rest b t0) hs b
  | symbolBit e rest b t0 he hs hle hc hn ht =>
    exact ht ▸ controlInv_shiftBit (controlInv_afterBit h (.inr hs) e rest b t0) hs hn b t0
  | symbol e rest b t0 he hs hle hc hn ht =>
    exact controlInv_runSymbol (controlInv_symbolReady h hs e rest b t0) rfl rfl ht

end Sys2Proof.Control
end


section
/-! What a step reports: the Frames it appends and the event outputs it leaves, said once for every step
without a reset (R61, R97, R155, R270), and the laws that follow from it. -/

namespace Sys2Proof.Reports

open Sys2Proof Sys2Proof.Machine Sys2Proof.Rules

/-! ### Units, by what they report -/

@[simp] theorem sopFound_frames (v : BitVec 3) (s : State) : (sopFound v s).frames =
    s.frames ++ [⟨.sop, v.zeroExtend 64, 0#64, s.unitStart, s.cur⟩] := rfl

@[simp] theorem sopFound_ev (v : BitVec 3) (s : State) : (sopFound v s).ev = s.ev := rfl

@[simp] theorem sopError_frames (s : State) : (sopError s).frames =
    s.frames ++ [⟨.sopError, 0#64, 0#64, s.unitStart, s.cur⟩] := rfl

@[simp] theorem sopError_ev (s : State) : (sopError s).ev = s.ev.assert .sopError := rfl

@[simp] theorem headerDone_frames (b : Bool) (h : Header) (s : State) : (headerDone b h s).frames =
    s.frames ++ [⟨.header, h.zeroExtend 64, s.sopType.zeroExtend 64, s.unitStart, s.cur⟩] := by
  rw [headerDone_eq]

@[simp] theorem headerDone_ev (b : Bool) (h : Header) (s : State) : (headerDone b h s).ev = s.ev := by
  rw [headerDone_eq]

@[simp] theorem crcDone_frames (s : State) : (crcDone s).frames =
    s.frames ++ [⟨.crc32, s.acc.zeroExtend 64, s.crc.zeroExtend 64, s.unitStart, s.cur⟩] := by
  rw [crcDone_eq]

@[simp] theorem crcDone_ev (s : State) :
    (crcDone s).ev = if s.acc != s.crc then s.ev.assert .crcMismatch else s.ev := by
  rw [crcDone_eq]

@[simp] theorem nextObject_frames (s : State) : (nextObject s).frames = s.frames := by
  rw [nextObject_eq]

@[simp] theorem nextObject_ev (s : State) : (nextObject s).ev = s.ev := by
  rw [nextObject_eq]

/-- What the completed object in hand reports (R197 to R202): nothing in a control message (log 17), else
one Frame of the type its class and index give. -/
inductive ObjectReport (s t : State) : Prop where
  | silent (hk : kind s.cfg s.hdr = .control) (hf : t.frames = s.frames) (he : t.ev = s.ev)
  | plain (hk : kind s.cfg s.hdr ≠ .control)
      (hy : objectType s = .dataObject ∨ objectType s = .sourcePdo ∨ objectType s = .vdmHeader)
      (hf : t.frames = s.frames ++ [objectFrame (objectType s) 0#64 s]) (he : t.ev = s.ev)
  | resolved (p : Word) (hk : kind s.cfg s.hdr ≠ .control) (hy : objectType s = .requestDo)
      (hp : pdoAt (objPos s.cfg s.acc) s = some p)
      (hf : t.frames = s.frames ++ [objectFrame .requestDo (p.zeroExtend 64) s]) (he : t.ev = s.ev)
  | unresolved (hk : kind s.cfg s.hdr ≠ .control) (hy : objectType s = .requestDo)
      (hp : pdoAt (objPos s.cfg s.acc) s = none)
      (hf : t.frames = s.frames ++ [objectFrame .requestDo refSentinel s])
      (he : t.ev = s.ev.assert .refError)

theorem objectReport_of_objectDone {s t : State}
    (h : objectDone (objectPart (kind s.cfg s.hdr)) s = .next t) : ObjectReport s t := by
  obtain ⟨u, hu, rfl⟩ := (objectDone_eq_next _ _ _).1 h
  cases objectPart_cases _ _ _ _ _ hu with
  | silent hk ht =>
    subst ht
    exact .silent hk (by simp) (by simp)
  | stored hk hi ht =>
    have hy : objectType s = .sourcePdo := by simp [objectType, hk]
    subst ht
    exact .plain (by simp [hk]) (by simp [hy]) (by simp [hy, objectFrame]) (by simp)
  | resolved p hk hi hp ht =>
    have hi' : s.objIndex = 0#3 := hi
    subst ht
    exact .resolved p (by simp [hk]) (by simp [objectType, hk, hi']) hp (by simp [objectFrame]) (by simp)
  | unresolved hk hi hp ht =>
    have hi' : s.objIndex = 0#3 := hi
    subst ht
    exact .unresolved (by simp [hk]) (by simp [objectType, hk, hi']) hp (by simp [objectFrame]) (by simp)
  | vdmHeader hk hi ht =>
    have hi' : s.objIndex = 0#3 := hi
    have hy : objectType s = .vdmHeader := by simp [objectType, hk, hi']
    subst ht
    exact .plain (by simp [hk]) (by simp [hy]) (by simp [hy, objectFrame]) (by simp)
  | generic hk ht =>
    have hy : objectType s = .dataObject ∧ kind s.cfg s.hdr ≠ .control := by
      rcases hk with hk | ⟨hk | hk, hi⟩
      · simp [objectType, hk]
      · have hi' : s.objIndex ≠ 0#3 := hi
        simp [objectType, hk, hi']
      · have hi' : s.objIndex ≠ 0#3 := hi
        simp [objectType, hk, hi']
    subst ht
    exact .plain hy.2 (by simp [hy]) (by simp [hy, objectFrame]) (by simp)

/-! ### The whole step -/

/-- At most one Byte Frame, and only with P14 (R155). -/
inductive ByteReport (c : Cfg) : List Frame → Prop where
  | none : ByteReport c []
  | one (x : Byte) (u v : Sample) (hc : c.emitByteFrames = true) :
      ByteReport c [⟨.byte, x.zeroExtend 64, 0#64, u, v⟩]

theorem byteReport_byteFrames (n : Byte) (s : State) : ByteReport s.cfg (byteFrames n s) := by
  unfold byteFrames
  split
  next hb =>
    rw [Bool.and_eq_true] at hb
    exact .one _ _ _ hb.2
  next => exact .none

/-- The Frames a step without a reset appends, in order, with the event outputs it leaves. The levels `g`
and `b` are those of `EV_GLITCH` and `EV_SYM_INVALID`. -/
inductive StepReport (c : Cfg) (sopType : BitVec 3) : List Frame → Events → Prop where
  | inputFault : StepReport c sopType [] { Events.none with inputFault := true }
  | quiet (l : List Frame) (hl : ByteReport c l) (g b : Bool) :
      StepReport c sopType l { Events.none with glitch := g, symInvalid := b }
  | preamble (u v : Sample) (g : Bool) :
      StepReport c sopType [⟨.preamble, 1#64, 0#64, u, v⟩] { Events.none with glitch := g }
  | sop (i : Fin 5) (u v : Sample) (g : Bool) :
      StepReport c sopType [⟨.sop, (BitVec.ofNat 3 i).zeroExtend 64, 0#64, u, v⟩]
        { Events.none with glitch := g }
  | sopError (u v : Sample) (g : Bool) :
      StepReport c sopType [⟨.sopError, 0#64, 0#64, u, v⟩] { Events.none with glitch := g, sopError := true }
  | header (l : List Frame) (hl : ByteReport c l) (h : Header) (u v : Sample) (g b : Bool) :
      StepReport c sopType (l ++ [⟨.header, h.zeroExtend 64, sopType.zeroExtend 64, u, v⟩])
        { Events.none with glitch := g, symInvalid := b }
  | object (l : List Frame) (hl : ByteReport c l) (y : FrameType)
      (hy : y = .dataObject ∨ y = .sourcePdo ∨ y = .vdmHeader) (x : Word) (u v : Sample) (g b : Bool) :
      StepReport c sopType (l ++ [⟨y, x.zeroExtend 64, 0#64, u, v⟩])
        { Events.none with glitch := g, symInvalid := b }
  | resolved (l : List Frame) (hl : ByteReport c l) (x p : Word) (u v : Sample) (g b : Bool) :
      StepReport c sopType (l ++ [⟨.requestDo, x.zeroExtend 64, p.zeroExtend 64, u, v⟩])
        { Events.none with glitch := g, symInvalid := b }
  | unresolved (l : List Frame) (hl : ByteReport c l) (x : Word) (u v : Sample) (g b : Bool) :
      StepReport c sopType (l ++ [⟨.requestDo, x.zeroExtend 64, refSentinel, u, v⟩])
        { Events.none with glitch := g, symInvalid := b, refError := true }
  | trailer (l : List Frame) (hl : ByteReport c l) (x y : Word) (u v : Sample) (g b : Bool) :
      StepReport c sopType (l ++ [⟨.crc32, x.zeroExtend 64, y.zeroExtend 64, u, v⟩])
        { Events.none with glitch := g, symInvalid := b, crcMismatch := x != y }
  | eop (u v : Sample) (g : Bool) :
      StepReport c sopType [⟨.eop, 1#64, 0#64, u, v⟩] { Events.none with glitch := g }
  | eopError (u v : Sample) (g : Bool) :
      StepReport c sopType [⟨.eop, 0#64, 0#64, u, v⟩] { Events.none with glitch := g, eopError := true }

/-- The event outputs after a data symbol that was run with only `EV_GLITCH` possibly set. -/
theorem afterData_ev {s : State} {g : Bool} (hev : s.ev = { Events.none with glitch := g }) :
    (afterData s).ev = { Events.none with
      glitch := g, symInvalid := dec5 s.cfg s.symSr == s.cfg.invalidNibble } := by
  rw [dataSymbol_ev, hev]
  cases dec5 s.cfg s.symSr == s.cfg.invalidNibble <;> rfl

/-- What a completed symbol reports, run with only `EV_GLITCH` possibly set. -/
theorem stepReport_of_runSymbol {s t : State} {g : Bool} (hev : s.ev = { Events.none with glitch := g })
    (h : runSymbol s = .next t) : ∃ l, t.frames = s.frames ++ l ∧ StepReport s.cfg s.sopType l t.ev := by
  have hbytes := byteReport_byteFrames (dec5 s.cfg s.symSr) s
  have hdata := afterData_ev hev
  cases runSymbol_cases s t h with
  | idle hs ht =>
    subst ht
    exact ⟨[], by simp, hev ▸ .quiet _ .none g false⟩
  | sopStored hs hk ht =>
    subst ht
    exact ⟨[], by simp, hev ▸ .quiet _ .none g false⟩
  | sopAccepted v hs hk hv ht =>
    subst ht
    exact ⟨_, sopFound_frames _ _, hev ▸ .sop v _ _ g⟩
  | sopRejected hs hk hv ht =>
    subst ht
    refine ⟨_, sopError_frames _, ?_⟩
    rw [sopError_ev, hev]
    exact .sopError _ _ g
  | data hs hl ht =>
    subst ht
    exact ⟨_, dataSymbol_frames _ _, hdata ▸ .quiet _ hbytes g _⟩
  | header hs hk ht =>
    subst ht
    refine ⟨_, by rw [headerDone_frames, dataSymbol_frames, List.append_assoc], ?_⟩
    rw [headerDone_ev, hdata, dataSymbol_sopType]
    exact .header _ hbytes _ _ _ g _
  | object hs hk ht =>
    have hrep : ObjectReport (afterData s) t := objectReport_of_objectDone (by
      rw [dataSymbol_cfg, dataSymbol_hdr]
      exact ht)
    have happend : ∀ f, t.frames = (afterData s).frames ++ [f] →
        t.frames = s.frames ++ (byteFrames (dec5 s.cfg s.symSr) s ++ [f]) := fun f hf => by
      rw [hf, dataSymbol_frames, List.append_assoc]
    cases hrep with
    | silent hk hf he => exact ⟨_, hf.trans (dataSymbol_frames _ _), (he.trans hdata) ▸ .quiet _ hbytes g _⟩
    | plain hk hy hf he => exact ⟨_, happend _ hf, (he.trans hdata) ▸ .object _ hbytes _ hy _ _ _ g _⟩
    | resolved p hk hy hp hf he =>
      exact ⟨_, happend _ hf, (he.trans hdata) ▸ .resolved _ hbytes _ p _ _ g _⟩
    | unresolved hk hy hp hf he =>
      refine ⟨_, happend _ hf, ?_⟩
      rw [he, hdata]
      exact .unresolved _ hbytes _ _ _ g _
  | trailer hs hk ht =>
    subst ht
    refine ⟨_, by rw [crcDone_frames, dataSymbol_frames, List.append_assoc], ?_⟩
    have hev' : (crcDone (afterData s)).ev = { Events.none with
        glitch := g, symInvalid := dec5 s.cfg s.symSr == s.cfg.invalidNibble
        crcMismatch := (afterData s).acc != (afterData s).crc } := by
      rw [crcDone_ev, hdata]
      cases (afterData s).acc != (afterData s).crc <;> rfl
    rw [hev']
    exact .trailer _ hbytes _ _ _ _ g _
  | eop hs ht =>
    subst ht
    obtain ⟨-, heop⟩ | ⟨-, heop⟩ := eopSymbol_cases s.symSr s <;> rw [heop]
    · exact ⟨_, emit_frames .., hev ▸ .eop _ _ g⟩
    · refine ⟨_, emit_frames .., ?_⟩
      rw [enterSearch_ev, signal_ev, emit_ev, hev]
      exact .eopError _ _ g

/-- What a step without a reset reports. -/
theorem stepReport_of_step {s t : State} (hr : s.resetReq = none) (h : step s = .next t) :
    ∃ l, t.frames = s.frames ++ l ∧ StepReport s.cfg s.sopType l t.ev := by
  cases step_cases s t h with
  | reset c hr' ha ht => simp [hr] at hr'
  | hold hr hq ht =>
    subst ht
    exact ⟨[], by simp, .quiet _ .none false false⟩
  | position e rest he hs ht =>
    subst ht
    exact ⟨[], (List.append_nil _).symm, .quiet _ .none false false⟩
  | backward e rest he hs hlt ht =>
    subst ht
    exact ⟨[], (List.append_nil _).symm, .inputFault⟩
  | trailing e rest he hs hle ht =>
    subst ht
    exact ⟨[], (List.append_nil _).symm, .quiet _ .none false false⟩
  | midBit e rest he hs hle hb hw ht =>
    subst ht
    refine ⟨[], by simp, ?_⟩
    cases glitchFloor s.cfg (interval s.cur e.t)
    · exact .quiet _ .none false false
    · exact .quiet _ .none true false
  | searchBit e rest b t0 he hs hle hc ht =>
    subst ht
    obtain ⟨-, hb⟩ | ⟨-, hb⟩ := preambleBit_cases b (afterBit s e rest b t0) <;>
      rw [hb, FrameSync.preambleCount_eq]
    · exact ⟨_, rfl, .preamble _ _ (glitches s e)⟩
    · exact ⟨[], (List.append_nil _).symm, .quiet _ .none (glitches s e) false⟩
  | symbolBit e rest b t0 he hs hle hc hn ht =>
    subst ht
    refine ⟨[], ?_, ?_⟩
    · unfold shiftBit
      split <;> exact (List.append_nil _).symm
    · unfold shiftBit
      split <;> exact .quiet _ .none (glitches s e) false
  | symbol e rest b t0 he hs hle hc hn ht =>
    exact stepReport_of_runSymbol (s := symbolReady s e rest b t0) (g := glitches s e) rfl ht

/-- The Frames a step reports are the new ones. -/
theorem newFrames_of_append {s t : State} {l : List Frame} (h : t.frames = s.frames ++ l) :
    newFrames s t = l := by
  rw [newFrames, h, List.drop_left]

/-! ### The registers every step keeps (R42) -/

/-- Settles O47: no operation of a step without reset writes the configuration. -/
theorem configurationIsReadOnly : Obligations.ConfigurationIsReadOnly := by
  intro s t hr h
  cases step_cases s t h with
  | reset c hr' ha ht => simp [hr] at hr'
  | hold hr hq ht => exact ht ▸ rfl
  | position e rest he hs ht => exact ht ▸ rfl
  | backward e rest he hs hlt ht => exact ht ▸ rfl
  | trailing e rest he hs hle ht => exact ht ▸ rfl
  | midBit e rest he hs hle hb hw ht => simp [ht]
  | searchBit e rest b t0 he hs hle hc ht => exact ht ▸ (sameRecovery_preambleBit b _).cfg
  | symbolBit e rest b t0 he hs hle hc hn ht => exact ht ▸ (sameRecovery_shiftBit b t0 _).cfg
  | symbol e rest b t0 he hs hle hc hn ht => exact (sameRecovery_runSymbol ht).cfg

/-- R39: a symbol leaves the SOP type, or sets it to an index of the table. -/
theorem sopType_of_runSymbol {s t : State} (h : runSymbol s = .next t) :
    t.sopType = s.sopType ∨ ∃ v : Fin 5, t.sopType = BitVec.ofNat 3 v := by
  cases runSymbol_cases s t h with
  | idle hs ht => exact .inl (ht ▸ rfl)
  | sopStored hs hk ht => exact .inl (ht ▸ rfl)
  | sopAccepted v hs hk hv ht => exact .inr ⟨v, ht ▸ rfl⟩
  | sopRejected hs hk hv ht => exact .inl (ht ▸ rfl)
  | data hs hl ht => exact .inl (by rw [ht, dataSymbol_sopType])
  | header hs hk ht => exact .inl (by rw [ht, headerDone_eq, dataSymbol_sopType])
  | object hs hk ht =>
    obtain ⟨u, hu, rfl⟩ := (objectDone_eq_next _ _ _).1 ht
    obtain ⟨fs, -, hu⟩ := objectPart_eq_next _ _ _ _ _ hu
    exact .inl (by rw [nextObject_eq, hu, dataSymbol_sopType])
  | trailer hs hk ht => exact .inl (by rw [ht, crcDone_eq, dataSymbol_sopType])
  | eop hs ht =>
    obtain ⟨-, heop⟩ | ⟨-, heop⟩ := eopSymbol_cases s.symSr s <;> exact .inl (by rw [ht, heop]; rfl)

/-- R39: the SOP type stays an index of the table. -/
theorem sopType_le_of_step {s t : State} (hv : s.sopType.toNat ≤ 4) (h : step s = .next t) :
    t.sopType.toNat ≤ 4 := by
  cases step_cases s t h with
  | reset c hr ha ht => exact ht ▸ Nat.zero_le _
  | hold hr hq ht => exact ht ▸ hv
  | position e rest he hs ht => exact ht ▸ hv
  | backward e rest he hs hlt ht => exact ht ▸ hv
  | trailing e rest he hs hle ht => exact ht ▸ hv
  | midBit e rest he hs hle hb hw ht => simpa [ht] using hv
  | searchBit e rest b t0 he hs hle hc ht =>
    subst ht
    obtain ⟨-, hb⟩ | ⟨-, hb⟩ := preambleBit_cases b (afterBit s e rest b t0) <;>
      rw [hb, FrameSync.preambleCount_eq] <;> exact hv
  | symbolBit e rest b t0 he hs hle hc hn ht =>
    subst ht
    unfold shiftBit
    split <;> exact hv
  | symbol e rest b t0 he hs hle hc hn ht =>
    obtain hs | ⟨v, hs⟩ := sopType_of_runSymbol ht
    · exact hs ▸ hv
    · exact hs ▸ toNat_variant_le v

/-! ### The fields of a Frame (R97) -/

theorem toNat_zeroExtend_field {w : Nat} (x : BitVec w) (hw : w ≤ 64) :
    ((x.zeroExtend 64 : Field)).toNat = x.toNat := by
  have hx := x.isLt
  have hpow : 2 ^ w ≤ 2 ^ 64 := Nat.pow_le_pow_right (by decide) hw
  rw [BitVec.toNat_setWidth, Nat.mod_eq_of_lt (by omega)]

theorem zeroExtend_word_lt (x : Word) : ((x.zeroExtend 64 : Field)).toNat < 2 ^ 32 := by
  rw [toNat_zeroExtend_field x (by decide)]
  exact x.isLt

/-- R200: no list entry reads as the sentinel. -/
theorem zeroExtend_word_ne_refSentinel (x : Word) : (x.zeroExtend 64 : Field) ≠ refSentinel := by
  intro h
  have hx := zeroExtend_word_lt x
  rw [h] at hx
  exact absurd hx (by decide)

theorem zeroExtend_word_inj {x y : Word} : (x.zeroExtend 64 : Field) = y.zeroExtend 64 ↔ x = y := by
  refine ⟨fun h => BitVec.eq_of_toNat_eq ?_, fun h => h ▸ rfl⟩
  rw [← toNat_zeroExtend_field x (by decide), h, toNat_zeroExtend_field y (by decide)]

theorem wellFormed_of_byteReport {c : Cfg} {l : List Frame} (h : ByteReport c l) :
    ∀ f ∈ l, f.wellFormed c = true := by
  cases h with
  | none => simp
  | one x u v hc =>
    have hx : (x.zeroExtend 64 : Field).toNat < 2 ^ 8 := by
      rw [toNat_zeroExtend_field x (by decide)]
      exact x.isLt
    simpa [Frame.wellFormed, hc] using hx

theorem wellFormed_append {c : Cfg} {l : List Frame} {f : Frame} (hl : ByteReport c l)
    (hf : f.wellFormed c = true) : ∀ g ∈ l ++ [f], g.wellFormed c = true := by
  simp only [List.forall_mem_append, List.forall_mem_singleton]
  exact ⟨wellFormed_of_byteReport hl, hf⟩

/-- R97: every Frame reported has the fields of its type. -/
theorem wellFormed_of_stepReport {c : Cfg} {v : BitVec 3} (hv : v.toNat ≤ 4) {l : List Frame}
    {ev : Events} (h : StepReport c v l ev) : ∀ f ∈ l, f.wellFormed c = true := by
  cases h with
  | inputFault => simp
  | quiet _ hl g b => exact wellFormed_of_byteReport hl
  | preamble u w g => exact wellFormed_append .none rfl
  | sop i u w g =>
    have hi : ((BitVec.ofNat 3 i).zeroExtend 64 : Field).toNat ≤ 4 := by
      rw [toNat_zeroExtend_field _ (by decide)]
      exact toNat_variant_le i
    refine wellFormed_append .none ?_
    simp only [Frame.wellFormed, hi, decide_true]
    rfl
  | sopError u w g => exact wellFormed_append .none rfl
  | header l hl x u w g b =>
    refine wellFormed_append hl ?_
    have hx : (x.zeroExtend 64 : Field).toNat < 2 ^ 16 := by
      rw [toNat_zeroExtend_field x (by decide)]
      exact x.isLt
    have hv' : (v.zeroExtend 64 : Field).toNat ≤ 4 := by rwa [toNat_zeroExtend_field v (by decide)]
    simp only [Frame.wellFormed, hx, hv', decide_true, Bool.and_self]
  | object l hl y hy x u w g b =>
    have hx := zeroExtend_word_lt x
    refine wellFormed_append hl ?_
    rcases hy with rfl | rfl | rfl <;> simp only [Frame.wellFormed, hx, decide_true] <;> rfl
  | resolved l hl x p u w g b =>
    have hx := zeroExtend_word_lt x
    have hp := zeroExtend_word_lt p
    refine wellFormed_append hl ?_
    simp only [Frame.wellFormed, hx, hp, decide_true, Bool.true_or, Bool.and_self]
  | unresolved l hl x u w g b =>
    have hx := zeroExtend_word_lt x
    refine wellFormed_append hl ?_
    simp only [Frame.wellFormed, hx, decide_true, beq_self_eq_true, Bool.or_true, Bool.and_self]
  | trailer l hl x y u w g b =>
    have hx := zeroExtend_word_lt x
    have hy := zeroExtend_word_lt y
    refine wellFormed_append hl ?_
    simp only [Frame.wellFormed, hx, hy, decide_true, Bool.and_self]
  | eop u w g => exact wellFormed_append .none rfl
  | eopError u w g => exact wellFormed_append .none rfl

/-- Settles O42: a reset empties the stream; any other step appends its report. -/
theorem stepKeepsFramesWellFormed : Obligations.StepKeepsFramesWellFormed := by
  intro s t h hstep
  refine ⟨?_, sopType_le_of_step h.sopType_le hstep⟩
  cases hr : s.resetReq with
  | some c =>
    have ht : t.frames = [] := by
      cases step_cases s t hstep with
      | reset c' hr' ha ht => exact ht ▸ rfl
      | hold hr' hq ht => simp [hr] at hr'
      | _ => simp_all [edgeAt]
    simp [ht]
  | none =>
    obtain ⟨l, hl, hrep⟩ := stepReport_of_step hr hstep
    rw [hl, configurationIsReadOnly s t hr hstep]
    simp only [List.forall_mem_append]
    exact ⟨h.wellFormed, wellFormed_of_stepReport h.sopType_le hrep⟩

/-! ### How much a step appends (R61, R210) -/

theorem pair_of_byteReport_append {c : Cfg} {l : List Frame} {f : Frame} (hl : ByteReport c l) :
    (l ++ [f]).length ≤ 2 ∧
      ∀ g h : Frame, l ++ [f] = [g, h] → c.emitByteFrames = true ∧ g.type = .byte ∧ h = f := by
  cases hl with
  | none => simp
  | one x u v hc => simp [hc]

/-- A report has at most two Frames, of which the first is a Byte Frame and the second is not. -/
theorem pair_of_stepReport {c : Cfg} {v : BitVec 3} {l : List Frame} {ev : Events}
    (h : StepReport c v l ev) : l.length ≤ 2 ∧
      ∀ f g : Frame, l = [f, g] → c.emitByteFrames = true ∧ f.type = .byte ∧ g.type ≠ .byte := by
  have pair : ∀ (m : List Frame) (k : Frame), ByteReport c m → k.type ≠ .byte →
      (m ++ [k]).length ≤ 2 ∧ ∀ f g : Frame, m ++ [k] = [f, g] →
        c.emitByteFrames = true ∧ f.type = .byte ∧ g.type ≠ .byte := by
    intro m k hm hk
    obtain ⟨hlen, hpair⟩ := pair_of_byteReport_append (f := k) hm
    refine ⟨hlen, fun f g hfg => ?_⟩
    obtain ⟨hc, hf, rfl⟩ := hpair f g hfg
    exact ⟨hc, hf, hk⟩
  cases h with
  | quiet _ hl g b => cases hl <;> simp
  | header m hm x u w g b => exact pair m _ hm (by simp)
  | object m hm y hy x u w g b => exact pair m _ hm (by rcases hy with rfl | rfl | rfl <;> simp)
  | resolved m hm x p u w g b => exact pair m _ hm (by simp)
  | unresolved m hm x u w g b => exact pair m _ hm (by simp)
  | trailer m hm x y u w g b => exact pair m _ hm (by simp)
  | _ => simp

/-- R116: a step without a reset appends a marker when it completes a bit, else none. -/
theorem markers_of_step {s t : State} (hr : s.resetReq = none) (h : step s = .next t) :
    ∃ m, t.markers = s.markers ++ m ∧ m.length ≤ 1 := by
  have kept : t.markers = s.markers → ∃ m, t.markers = s.markers ++ m ∧ m.length ≤ 1 :=
    fun h => ⟨[], by simp [h], by simp⟩
  cases step_cases s t h with
  | reset c hr' ha ht => simp [hr] at hr'
  | hold hr hq ht => exact kept (ht ▸ rfl)
  | position e rest he hs ht => exact kept (ht ▸ rfl)
  | backward e rest he hs hlt ht => exact kept (ht ▸ rfl)
  | trailing e rest he hs hle ht => exact kept (ht ▸ rfl)
  | midBit e rest he hs hle hb hw ht => exact kept (by simp [ht])
  | searchBit e rest b t0 he hs hle hc ht =>
    exact ⟨[_], ht ▸ (sameRecovery_preambleBit b _).markers, le_rfl⟩
  | symbolBit e rest b t0 he hs hle hc hn ht =>
    exact ⟨[_], ht ▸ (sameRecovery_shiftBit b t0 _).markers, le_rfl⟩
  | symbol e rest b t0 he hs hle hc hn ht =>
    exact ⟨[_], (sameRecovery_runSymbol ht).markers, le_rfl⟩

/-- Settles O45: the Frames are the report's, the marker the completed bit's. -/
theorem stepAppendsAtMostTwoFrames : Obligations.StepAppendsAtMostTwoFrames := by
  intro s t hr h
  obtain ⟨l, hl, hrep⟩ := stepReport_of_step hr h
  obtain ⟨m, hm, hlen⟩ := markers_of_step hr h
  obtain ⟨htwo, hpair⟩ := pair_of_stepReport hrep
  exact ⟨l, m, hl, hm, hlen, htwo, hpair⟩

/-! ### Events and Frames (R270 to R274, R279) -/

/-- The event outputs `ev` are those the Frames `l` report (R271, R273, R274). -/
def ReportsEvents (ev : Events) (l : List Frame) : Prop :=
  (ev.sopError = true ↔ ∃ f ∈ l, f.type = .sopError) ∧
  (ev.eopError = true ↔ ∃ f ∈ l, f.type = .eop ∧ f.data1 = 0#64) ∧
  (ev.crcMismatch = true ↔ ∃ f ∈ l, f.type = .crc32 ∧ f.data1 ≠ f.data2) ∧
  (ev.refError = true ↔ ∃ f ∈ l, f.type = .requestDo ∧ f.data2 = refSentinel)

/-- A Byte Frame reports no event. -/
theorem reportsEvents_append {c : Cfg} {l m : List Frame} {ev : Events} (hl : ByteReport c l)
    (h : ReportsEvents ev m) : ReportsEvents ev (l ++ m) := by
  cases hl with
  | none => exact h
  | one x u v hc => simpa [ReportsEvents] using h

theorem reportsEvents_of_stepReport {c : Cfg} {v : BitVec 3} {l : List Frame} {ev : Events}
    (h : StepReport c v l ev) : ReportsEvents ev l := by
  cases h with
  | inputFault => simp [ReportsEvents, Events.none]
  | quiet _ hl g b =>
    have := reportsEvents_append (m := []) (ev := { Events.none with glitch := g, symInvalid := b }) hl
      (by simp [ReportsEvents, Events.none])
    rwa [List.append_nil] at this
  | preamble u w g => simp [ReportsEvents, Events.none]
  | sop i u w g => simp [ReportsEvents, Events.none]
  | sopError u w g => simp [ReportsEvents, Events.none]
  | header m hm x u w g b => exact reportsEvents_append hm (by simp [ReportsEvents, Events.none])
  | object m hm y hy x u w g b =>
    exact reportsEvents_append hm (by rcases hy with rfl | rfl | rfl <;> simp [ReportsEvents, Events.none])
  | resolved m hm x p u w g b =>
    have hp := zeroExtend_word_ne_refSentinel p
    exact reportsEvents_append hm (by simpa [ReportsEvents, Events.none] using hp)
  | unresolved m hm x u w g b => exact reportsEvents_append hm (by simp [ReportsEvents, Events.none])
  | trailer m hm x y u w g b =>
    have hxy : (x.zeroExtend 64 : Field) = y.zeroExtend 64 ↔ x = y := zeroExtend_word_inj
    exact reportsEvents_append hm (by simp only [ReportsEvents, Events.none]; simpa using hxy.not.symm)
  | eop u w g => simp [ReportsEvents, Events.none]
  | eopError u w g => simp [ReportsEvents, Events.none]

/-- Settles O54: the new Frames and the event outputs are those of one report. -/
theorem eventsMatchTheFrames : Obligations.EventsMatchTheFrames := by
  intro s t hr h
  obtain ⟨l, hl, hrep⟩ := stepReport_of_step hr h
  rw [newFrames_of_append hl]
  exact reportsEvents_of_stepReport hrep

/-- Settles O55: read off the report. -/
theorem eventsThatCanCoincide : Obligations.EventsThatCanCoincide := by
  intro s t hr h
  obtain ⟨l, -, hrep⟩ := stepReport_of_step hr h
  generalize t.ev = ev at hrep ⊢
  cases hrep <;> simp [Events.none]

end Sys2Proof.Reports
end


section
/-! The order of samples (R23, R78, R96): every step keeps it. The Frames emitted are ordered among
themselves and end at or before the cursor; each unit, byte and symbol in hand starts after them, so that
its own Frame continues the order. -/

namespace Sys2Proof.Timing

open Sys2Proof Sys2Proof.Machine Sys2Proof.Rules Sys2Proof.Reports

/-! ### The stream of Frames -/

/-- The clauses of `TimeInv` that speak of the Frames and the cursor only. -/
structure StreamOrdered (s : State) : Prop where
  ends_le_cur : ∀ f ∈ s.frames, f.endSample.toNat ≤ s.cur.toNat
  start_le_end : ∀ f ∈ s.frames, f.startSample.toNat ≤ f.endSample.toNat
  ends_sorted : s.frames.Pairwise fun f g => f.endSample.toNat ≤ g.endSample.toNat
  starts_sorted : s.frames.IsChain (startsInOrder s.cfg)
  byte_asked : ∀ f ∈ s.frames, f.type = .byte → s.cfg.emitByteFrames = true

theorem streamOrdered_of_timeInv {s : State} (h : TimeInv s) : StreamOrdered s :=
  ⟨h.ends_le_cur, h.start_le_end, h.ends_sorted, h.starts_sorted, h.byte_asked⟩

/-- The order is kept by a later cursor. -/
theorem streamOrdered_of_le {s t : State} (h : StreamOrdered s) (hf : t.frames = s.frames)
    (hc : t.cfg = s.cfg) (hle : s.cur.toNat ≤ t.cur.toNat) : StreamOrdered t := by
  constructor
  · rw [hf]
    exact fun f hm => (h.ends_le_cur f hm).trans hle
  · rw [hf]
    exact h.start_le_end
  · rw [hf]
    exact h.ends_sorted
  · rw [hf, hc]
    exact h.starts_sorted
  · rw [hf, hc]
    exact h.byte_asked

/-- R78: a Frame that ends at the cursor, and starts in order with the last one, continues the stream. -/
theorem streamOrdered_append {s t : State} {f : Frame} (h : StreamOrdered s)
    (hf : t.frames = s.frames ++ [f]) (hc : t.cfg = s.cfg) (hcur : t.cur = s.cur)
    (hend : f.endSample = s.cur) (hstart : f.startSample.toNat ≤ s.cur.toNat)
    (hbyte : f.type = .byte → s.cfg.emitByteFrames = true)
    (hlast : ∀ g ∈ s.frames.getLast?, startsInOrder s.cfg g f) : StreamOrdered t := by
  constructor
  · rw [hf, hcur, List.forall_mem_append, List.forall_mem_singleton, hend]
    exact ⟨h.ends_le_cur, le_rfl⟩
  · rw [hf, List.forall_mem_append, List.forall_mem_singleton, hend]
    exact ⟨h.start_le_end, hstart⟩
  · rw [hf, List.pairwise_append]
    refine ⟨h.ends_sorted, List.pairwise_singleton _ _, fun g hg k hk => ?_⟩
    rw [List.mem_singleton.1 hk, hend]
    exact h.ends_le_cur g hg
  · rw [hf, hc, List.isChain_append]
    refine ⟨h.starts_sorted, .singleton _, fun g hg k hk => ?_⟩
    obtain rfl : f = k := by simpa using hk
    exact hlast g hg
  · rw [hf, hc, List.forall_mem_append, List.forall_mem_singleton]
    exact ⟨h.byte_asked, hbyte⟩

/-- A start that no earlier Frame ends after is in order with all of them. -/
theorem startsInOrder_of_ends_le {s : State} (h : StreamOrdered s) {f : Frame}
    (hends : ∀ g ∈ s.frames, g.endSample.toNat ≤ f.startSample.toNat) :
    ∀ g ∈ s.frames.getLast?, startsInOrder s.cfg g f := fun g hg =>
  have hm := List.mem_of_getLast? hg
  .inl ((h.start_le_end g hm).trans (hends g hm))

/-! ### The work in hand -/

/-- The sample `x` lies in the unit in hand, and no Frame emitted ends after it. -/
structure InUnit (s : State) (x : Sample) : Prop where
  unitStart_le : s.unitStart.toNat ≤ x.toNat
  le_cur : x.toNat ≤ s.cur.toNat
  ends_le : ∀ f ∈ s.frames, f.endSample.toNat ≤ x.toNat

/-- R33: every Frame ends before the unit in hand starts, but for the Byte Frames of that unit. -/
def EndsBeforeUnit (s : State) : Prop :=
  ∀ f ∈ s.frames, f.endSample.toNat ≤ s.unitStart.toNat ∨
    (s.st.inData = true ∧ f.type = .byte ∧ s.unitStart.toNat ≤ f.startSample.toNat)

/-- Between bits of a packet, the clauses about the unit, the byte and the symbol in hand remain. -/
theorem timeInv_of_inPacket {s : State} (hs : s.st.inPacket = true) (hb : s.bph = .boundary)
    (hstream : StreamOrdered s) (hunit : s.unitStart.toNat ≤ s.cur.toNat)
    (hsym : s.symCnt ≠ 0#3 → InUnit s s.symStart)
    (hbyte : s.st.inData = true → s.unitSym.getLsbD 0 = true → InUnit s s.byteStart)
    (hends : EndsBeforeUnit s) : TimeInv s where
  preStart_le h := by simp [h, St.inPacket] at hs
  bitT0_le h := by simp [hb] at h
  unitStart_le _ := hunit
  symStart_le _ h := (hsym h).le_cur
  byteStart_le h h' := (hbyte h h').le_cur
  frames_empty h := by simp [h, St.inPacket] at hs
  ends_le_cur := hstream.ends_le_cur
  start_le_end := hstream.start_le_end
  ends_sorted := hstream.ends_sorted
  starts_sorted := hstream.starts_sorted
  byte_asked := hstream.byte_asked
  ends_le_preStart h := by simp [h, St.inPacket] at hs
  ends_le_bitT0 h := by simp [hb] at h
  unitStart_le_bitT0 h := by simp [hb] at h
  unitStart_le_symStart _ h := (hsym h).unitStart_le
  ends_le_symStart _ h := (hsym h).ends_le
  unitStart_le_byteStart h h' := (hbyte h h').unitStart_le
  ends_le_byteStart h h' := (hbyte h h').ends_le
  ends_le_unitStart _ := hends

/-- A unit just opened starts at the cursor, which is in order with everything before it. -/
theorem timeInv_of_opened {s : State} (hs : s.st.inPacket = true) (hb : s.bph = .boundary)
    (hstream : StreamOrdered s) (hunit : s.unitStart = s.cur) (hsyms : s.unitSym = 0#3)
    (hcnt : s.symCnt = 0#3) : TimeInv s :=
  timeInv_of_inPacket hs hb hstream (hunit ▸ le_rfl) (fun h => absurd hcnt h)
    (fun _ h => by simp [hsyms] at h) fun f hf => .inl (hunit ▸ hstream.ends_le_cur f hf)

/-- Outside the packet states the clauses about the search and the bit in hand remain. -/
theorem timeInv_of_not_inPacket {s : State} (hs : s.st.inPacket = false) (hstream : StreamOrdered s)
    (hpre : s.st = .searchPreamble → s.preStart.toNat ≤ s.cur.toNat ∧
      ∀ f ∈ s.frames, f.endSample.toNat ≤ s.preStart.toNat)
    (hbit : s.bph = .mid → s.bitT0.toNat ≤ s.cur.toNat ∧
      ∀ f ∈ s.frames, f.endSample.toNat ≤ s.bitT0.toNat)
    (hempty : s.st = .resetWait → s.frames = []) : TimeInv s where
  preStart_le h := (hpre h).1
  bitT0_le h := (hbit h).1
  unitStart_le h := by simp [hs] at h
  symStart_le h := by simp [hs] at h
  byteStart_le h := by simp [StopRequest.inPacket_of_inData h] at hs
  frames_empty := hempty
  ends_le_cur := hstream.ends_le_cur
  start_le_end := hstream.start_le_end
  ends_sorted := hstream.ends_sorted
  starts_sorted := hstream.starts_sorted
  byte_asked := hstream.byte_asked
  ends_le_preStart h := (hpre h).2
  ends_le_bitT0 h := (hbit h).2
  unitStart_le_bitT0 _ h := by simp [hs] at h
  unitStart_le_symStart h := by simp [hs] at h
  ends_le_symStart h := by simp [hs] at h
  unitStart_le_byteStart h := by simp [StopRequest.inPacket_of_inData h] at hs
  ends_le_byteStart h := by simp [StopRequest.inPacket_of_inData h] at hs
  ends_le_unitStart h := by simp [hs] at h

/-- R130: an entry into the search at the cursor starts after every Frame. -/
theorem timeInv_enterSearch {s : State} (hstream : StreamOrdered s)
    (hbit : s.bph = .mid → s.bitT0.toNat ≤ s.cur.toNat ∧
      ∀ f ∈ s.frames, f.endSample.toNat ≤ s.bitT0.toNat) : TimeInv (enterSearch s.cur s) := by
  have hst : (enterSearch s.cur s).st.inPacket = false ∧ (enterSearch s.cur s).st ≠ .resetWait := by
    rw [enterSearch_st]
    cases s.stopReq <;> decide
  exact timeInv_of_not_inPacket hst.1
    ⟨hstream.ends_le_cur, hstream.start_le_end, hstream.ends_sorted, hstream.starts_sorted,
      hstream.byte_asked⟩
    (fun _ => ⟨le_rfl, hstream.ends_le_cur⟩) hbit (fun h => absurd h hst.2)

/-! ### A bit recovered -/

/-- A later cursor at a bit boundary keeps every clause. -/
theorem timeInv_afterBit {s : State} (h : TimeInv s) {e : Edge} (hle : s.cur ≤ e.t) (rest : List Edge)
    (b : Bool) (t0 : Sample) : TimeInv (afterBit s e rest b t0) := by
  have hle' : s.cur.toNat ≤ e.t.toNat := hle
  exact {
    preStart_le := fun hs => (h.preStart_le hs).trans hle'
    bitT0_le := fun hb => by cases hb
    unitStart_le := fun hs => (h.unitStart_le hs).trans hle'
    symStart_le := fun hs hn => (h.symStart_le hs hn).trans hle'
    byteStart_le := fun hs hn => (h.byteStart_le hs hn).trans hle'
    frames_empty := h.frames_empty
    ends_le_cur := fun f hf => (h.ends_le_cur f hf).trans hle'
    start_le_end := h.start_le_end
    ends_sorted := h.ends_sorted
    starts_sorted := h.starts_sorted
    byte_asked := h.byte_asked
    ends_le_preStart := h.ends_le_preStart
    ends_le_bitT0 := fun hb => by cases hb
    unitStart_le_bitT0 := fun hb => by cases hb
    unitStart_le_symStart := h.unitStart_le_symStart
    ends_le_symStart := h.ends_le_symStart
    unitStart_le_byteStart := h.unitStart_le_byteStart
    ends_le_byteStart := h.ends_le_byteStart
    ends_le_unitStart := h.ends_le_unitStart }

/-- R112: a mid-bit edge keeps the boundary it leaves as the bit's start. -/
theorem timeInv_enterMid {s : State} (h : TimeInv s) {e : Edge} (hle : s.cur ≤ e.t) (g : Bool)
    (rest : List Edge) :
    TimeInv (enterMid e.t (signalIf g .glitch e.t (consume e rest (clearEvents s)))) := by
  have hle' : s.cur.toNat ≤ e.t.toNat := hle
  obtain ⟨ev, trace, hmid⟩ : ∃ ev trace,
      enterMid e.t (signalIf g .glitch e.t (consume e rest (clearEvents s))) = { s with
        input := rest, stopReq := e.stopReq, ev := ev, trace := trace, bitT0 := s.cur, cur := e.t
        bph := .mid } := by
    cases g <;> exact ⟨_, _, rfl⟩
  rw [hmid]
  exact {
    preStart_le := fun hs => (h.preStart_le hs).trans hle'
    bitT0_le := fun _ => hle'
    unitStart_le := fun hs => (h.unitStart_le hs).trans hle'
    symStart_le := fun hs hn => (h.symStart_le hs hn).trans hle'
    byteStart_le := fun hs hn => (h.byteStart_le hs hn).trans hle'
    frames_empty := h.frames_empty
    ends_le_cur := fun f hf => (h.ends_le_cur f hf).trans hle'
    start_le_end := h.start_le_end
    ends_sorted := h.ends_sorted
    starts_sorted := h.starts_sorted
    byte_asked := h.byte_asked
    ends_le_preStart := h.ends_le_preStart
    ends_le_bitT0 := fun _ => h.ends_le_cur
    unitStart_le_bitT0 := fun _ => h.unitStart_le
    unitStart_le_symStart := h.unitStart_le_symStart
    ends_le_symStart := h.ends_le_symStart
    unitStart_le_byteStart := h.unitStart_le_byteStart
    ends_le_byteStart := h.ends_le_byteStart
    ends_le_unitStart := h.ends_le_unitStart }

/-- A bit of a packet starts in the unit in hand, after every Frame, whether from a boundary or from the
first half of a one. -/
theorem inUnit_of_closes {s : State} (h : TimeInv s) (hs : s.st.inPacket = true) {e : Edge} {b : Bool}
    {t0 : Sample} (hc : closes s e b t0) : InUnit s t0 := by
  obtain ⟨hb, -, rfl⟩ | ⟨-, -, -, rfl⟩ := hc
  · exact ⟨h.unitStart_le_bitT0 hb hs, h.bitT0_le hb, h.ends_le_bitT0 hb⟩
  · exact ⟨h.unitStart_le hs, le_rfl, h.ends_le_cur⟩

theorem inUnit_of_le {s t : State} {x : Sample} (h : InUnit s x) (hu : t.unitStart = s.unitStart)
    (hf : t.frames = s.frames) (hle : s.cur.toNat ≤ t.cur.toNat) : InUnit t x :=
  ⟨hu ▸ h.unitStart_le, h.le_cur.trans hle, hf ▸ h.ends_le⟩

theorem inUnit_symStart {s : State} (h : TimeInv s) (hs : s.st.inPacket = true)
    (hn : s.symCnt ≠ 0#3) : InUnit s s.symStart :=
  ⟨h.unitStart_le_symStart hs hn, h.symStart_le hs hn, h.ends_le_symStart hs hn⟩

theorem inUnit_byteStart {s : State} (h : TimeInv s) (hs : s.st.inData = true)
    (hn : s.unitSym.getLsbD 0 = true) : InUnit s s.byteStart :=
  ⟨h.unitStart_le_byteStart hs hn, h.byteStart_le hs hn, h.ends_le_byteStart hs hn⟩

/-- R150: the first bit of a symbol gives the symbol its start. -/
theorem timeInv_shiftBit {s : State} (h : TimeInv s) (hs : s.st.inPacket = true)
    (hb : s.bph = .boundary) {t0 : Sample} (ht0 : InUnit s t0) (b : Bool) :
    TimeInv (shiftBit b t0 s) := by
  have hstream := streamOrdered_of_timeInv h
  unfold shiftBit
  split
  next h0 =>
    exact timeInv_of_inPacket hs hb ⟨hstream.1, hstream.2, hstream.3, hstream.4, hstream.5⟩
      (h.unitStart_le hs) (fun _ => ⟨ht0.1, ht0.2, ht0.3⟩)
      (fun hd hn => (⟨h.unitStart_le_byteStart hd hn, h.byteStart_le hd hn, h.ends_le_byteStart hd hn⟩))
      (h.ends_le_unitStart hs)
  next h0 =>
    exact timeInv_of_inPacket hs hb ⟨hstream.1, hstream.2, hstream.3, hstream.4, hstream.5⟩
      (h.unitStart_le hs)
      (fun _ => ⟨h.unitStart_le_symStart hs h0, h.symStart_le hs h0, h.ends_le_symStart hs h0⟩)
      (fun hd hn => ⟨h.unitStart_le_byteStart hd hn, h.byteStart_le hd hn, h.ends_le_byteStart hd hn⟩)
      (h.ends_le_unitStart hs)

/-- R131, R132: the Preamble Frame starts where the run did, after every Frame. -/
theorem timeInv_preambleBit {s : State} (h : TimeInv s) (hs : s.st = .searchPreamble)
    (hb : s.bph = .boundary) (b : Bool) : TimeInv (preambleBit b s) := by
  have hstream := streamOrdered_of_timeInv h
  have hcount : StreamOrdered (preambleCount b s) ∧
      (preambleCount b s).preStart.toNat ≤ (preambleCount b s).cur.toNat ∧
      ∀ f ∈ (preambleCount b s).frames, f.endSample.toNat ≤ (preambleCount b s).preStart.toNat := by
    rw [FrameSync.preambleCount_eq]
    refine ⟨⟨hstream.1, hstream.2, hstream.3, hstream.4, hstream.5⟩, ?_⟩
    dsimp only
    split
    · exact ⟨h.preStart_le hs, h.ends_le_preStart hs⟩
    · exact ⟨le_rfl, h.ends_le_cur⟩
  have hbph : (preambleCount b s).bph = .boundary := by rw [FrameSync.preambleCount_eq]; exact hb
  obtain ⟨hstream', hpre, hends⟩ := hcount
  obtain ⟨-, hbit⟩ | ⟨-, hbit⟩ := preambleBit_cases b s <;> rw [hbit]
  · refine timeInv_of_opened rfl hbph ?_ rfl rfl rfl
    exact streamOrdered_append hstream' rfl rfl rfl rfl hpre (fun hy => by cases hy)
      (startsInOrder_of_ends_le hstream' hends)
  · refine timeInv_of_not_inPacket ?_
      ⟨hstream'.1, hstream'.2, hstream'.3, hstream'.4, hstream'.5⟩ (fun _ => ⟨hpre, hends⟩)
      (fun hm => by simp [hbph] at hm) ?_
    · cases s.stopReq <;> simp [hs, St.inPacket]
    · cases s.stopReq <;> simp [hs]

/-! ### A symbol completed -/

/-- The order of samples when a symbol of the unit in hand has just been completed. -/
structure SymbolOrdered (s : State) : Prop where
  stream : StreamOrdered s
  symbol : InUnit s s.symStart
  byte : s.st.inData = true → s.unitSym.getLsbD 0 = true → InUnit s s.byteStart
  unit : EndsBeforeUnit s

/-- Every Frame of the unit in hand is its Byte Frame or ends before it: an SOP or EOP position has none
of the former. -/
theorem ends_le_unitStart_of_not_inData {s : State} (h : EndsBeforeUnit s) (hs : s.st.inData = false) :
    ∀ f ∈ s.frames, f.endSample.toNat ≤ s.unitStart.toNat := fun f hf => by
  rcases h f hf with h | ⟨hd, -⟩
  · exact h
  · simp [hs] at hd

theorem getLsbD_zero_add_one (x : BitVec 3) : (x + 1#3).getLsbD 0 = !x.getLsbD 0 := by
  revert x; decide

/-- R153, R155: the Byte Frame starts with the byte's first symbol. -/
theorem streamOrdered_afterData {s : State} (h : SymbolOrdered s) (hs : s.st.inData = true) :
    StreamOrdered (afterData s) := by
  by_cases hb : s.unitSym.getLsbD 0 = true ∧ s.cfg.emitByteFrames = true
  · have hbyte := h.byte hs hb.1
    refine streamOrdered_append (f := ⟨.byte, (byteOf s.nibLo (dec5 s.cfg s.symSr)).zeroExtend 64, 0#64,
      s.byteStart, s.cur⟩) h.stream ?_ (dataSymbol_cfg _ _) (dataSymbol_cur _ _) rfl hbyte.le_cur
      (fun _ => hb.2) (startsInOrder_of_ends_le h.stream hbyte.ends_le)
    rw [dataSymbol_frames, byteFrames, hb.1, hb.2]
    rfl
  · refine streamOrdered_of_le h.stream ?_ (dataSymbol_cfg _ _) (by rw [dataSymbol_cur])
    rw [dataSymbol_frames, byteFrames, if_neg (by simpa using hb), List.append_nil]

/-- R78: a unit's own Frame starts no earlier than the Frame before it, or follows the unit's last Byte
Frame. -/
theorem streamOrdered_unitFrame {s t : State} {f : Frame} (h : SymbolOrdered s)
    (hs : s.st.inData = true) (hodd : s.unitSym.getLsbD 0 = true)
    (hf : t.frames = (afterData s).frames ++ [f]) (hc : t.cfg = s.cfg) (hcur : t.cur = s.cur)
    (hend : f.endSample = s.cur) (hstart : f.startSample = s.unitStart) (hy : f.type ≠ .byte) :
    StreamOrdered t := by
  refine streamOrdered_append (streamOrdered_afterData h hs) hf (hc.trans (dataSymbol_cfg _ _).symm)
    (hcur.trans (dataSymbol_cur _ _).symm) (hend.trans (dataSymbol_cur _ _).symm) ?_
    (fun h => absurd h hy) ?_
  · rw [hstart, dataSymbol_cur]
    exact (h.symbol.unitStart_le).trans h.symbol.le_cur
  · rw [dataSymbol_cfg]
    intro g hg
    by_cases hask : s.cfg.emitByteFrames = true
    · have hbytes : byteFrames (dec5 s.cfg s.symSr) s = [⟨.byte,
          (byteOf s.nibLo (dec5 s.cfg s.symSr)).zeroExtend 64, 0#64, s.byteStart, s.cur⟩] := by
        rw [byteFrames, hodd, hask]
        rfl
      rw [dataSymbol_frames, hbytes, List.getLast?_concat, Option.mem_some] at hg
      subst hg
      exact .inr ⟨hask, rfl, hy, hend.symm⟩
    · have hbytes : byteFrames (dec5 s.cfg s.symSr) s = [] := by
        rw [byteFrames, if_neg (by simp [hask])]
      rw [dataSymbol_frames, hbytes, List.append_nil] at hg
      have hm := List.mem_of_getLast? hg
      rcases h.unit g hm with hle | ⟨-, hbyte, -⟩
      · exact .inl (hstart ▸ (h.stream.start_le_end g hm).trans hle)
      · exact absurd (h.stream.byte_asked g hm hbyte) hask

/-- R153: a data symbol that is not the last of its unit: the first of a byte gives the byte its start,
the second its Frame. -/
theorem timeInv_afterData {s : State} (h : SymbolOrdered s) (hs : s.st.inData = true)
    (hb : s.bph = .boundary) (hcnt : s.symCnt = 0#3) : TimeInv (afterData s) := by
  refine timeInv_of_inPacket (by simpa using StopRequest.inPacket_of_inData hs) (by simpa using hb)
    (streamOrdered_afterData h hs) ?_ (fun hn => absurd (by simpa using hcnt) hn) (fun _ hn => ?_) ?_
  · simpa using h.symbol.unitStart_le.trans h.symbol.le_cur
  · have heven : s.unitSym.getLsbD 0 = false := by
      rw [dataSymbol_unitSym, getLsbD_zero_add_one] at hn
      simpa using hn
    have hstart : (afterData s).byteStart = s.symStart := by rw [dataSymbol_byteStart, heven]; rfl
    rw [hstart]
    refine inUnit_of_le h.symbol (dataSymbol_unitStart _ _) ?_ (by rw [dataSymbol_cur])
    rw [dataSymbol_frames, byteFrames, heven]
    exact List.append_nil _
  · intro f hf
    rw [dataSymbol_frames, List.mem_append] at hf
    rw [dataSymbol_unitStart, dataSymbol_st]
    rcases hf with hf | hf
    · exact h.unit f hf
    · obtain ⟨hodd, -, rfl⟩ := mem_byteFrames hf
      exact .inr ⟨hs, rfl, (h.byte hs hodd).unitStart_le⟩

/-- R197: a completed object's Frame, if its class has one, then the next object's unit. -/
theorem timeInv_object {s t : State} (h : SymbolOrdered s) (hs : s.st = .readPayload)
    (hodd : s.unitSym.getLsbD 0 = true) (hb : s.bph = .boundary) (hcnt : s.symCnt = 0#3)
    (ht : objectDone (objectPart (kind s.cfg s.hdr)) (afterData s) = .next t) : TimeInv t := by
  have hdata : s.st.inData = true := by rw [hs]; rfl
  have hsame : SameRecovery s t :=
    (sameRecovery_dataSymbol _ s).trans (sameRecovery_objectDone ht)
  have hrep : ObjectReport (afterData s) t := objectReport_of_objectDone (by
    rw [dataSymbol_cfg, dataSymbol_hdr]
    exact ht)
  have hopened : t.st.inPacket = true ∧ t.unitStart = t.cur ∧ t.unitSym = 0#3 ∧ t.symCnt = s.symCnt := by
    obtain ⟨u, hu, rfl⟩ := (objectDone_eq_next _ _ _).1 ht
    obtain ⟨fs, -, hu⟩ := objectPart_eq_next _ _ _ _ _ hu
    rw [nextObject_eq, hu]
    refine ⟨?_, rfl, rfl, dataSymbol_symCnt _ _⟩
    dsimp only
    split <;> simp [hs, St.inPacket]
  obtain ⟨hpacket, hstart, hsyms, hcnt'⟩ := hopened
  refine timeInv_of_opened hpacket (hsame.bph.trans hb) ?_ hstart hsyms (hcnt'.trans hcnt)
  have hown : ∀ (y : FrameType) (d : Field), y ≠ .byte →
      t.frames = (afterData s).frames ++ [objectFrame y d (afterData s)] → StreamOrdered t :=
    fun y d hy hf => streamOrdered_unitFrame h hdata hodd hf hsame.cfg hsame.cur
      (dataSymbol_cur _ _) (dataSymbol_unitStart _ _) hy
  cases hrep with
  | silent hk hf he =>
    exact streamOrdered_of_le (streamOrdered_afterData h hdata) hf
      (hsame.cfg.trans (dataSymbol_cfg _ _).symm) (by rw [hsame.cur, dataSymbol_cur])
  | plain hk hy hf he => exact hown _ _ (by rcases hy with hy | hy | hy <;> simp [hy]) hf
  | resolved p hk hy hp hf he => exact hown _ _ (by simp) hf
  | unresolved hk hy hp hf he => exact hown _ _ (by simp) hf

/-- A completed symbol keeps the order: its own Frames start with the symbol, the byte or the unit. -/
theorem timeInv_runSymbol {s t : State} (h : SymbolOrdered s) (hs : s.st.inPacket = true)
    (hb : s.bph = .boundary) (hcnt : s.symCnt = 0#3) (ht : runSymbol s = .next t) : TimeInv t := by
  have hunit := h.symbol.unitStart_le.trans h.symbol.le_cur
  have hmid : ∀ {p : Prop}, s.bph = .mid → p := fun hm => by simp [hb] at hm
  cases runSymbol_cases s t ht with
  | idle hi ht => simp [hs] at hi
  | sopStored hst hk ht =>
    subst ht
    exact timeInv_of_inPacket hs hb ⟨h.stream.1, h.stream.2, h.stream.3, h.stream.4, h.stream.5⟩ hunit
      (fun hn => absurd hcnt hn) (fun hd => by simp [hst, St.inData] at hd) h.unit
  | sopAccepted v hst hk hv ht =>
    subst ht
    refine timeInv_of_opened rfl hb ?_ rfl rfl hcnt
    exact streamOrdered_append h.stream rfl rfl rfl rfl hunit (fun hy => by cases hy)
      (startsInOrder_of_ends_le h.stream
        (ends_le_unitStart_of_not_inData h.unit (by simp [hst, St.inData])))
  | sopRejected hst hk hv ht =>
    subst ht
    refine timeInv_enterSearch ?_ hmid
    exact streamOrdered_append h.stream rfl rfl rfl rfl hunit (fun hy => by cases hy)
      (startsInOrder_of_ends_le h.stream
        (ends_le_unitStart_of_not_inData h.unit (by simp [hst, St.inData])))
  | data hst hl ht => exact ht ▸ timeInv_afterData h hst hb hcnt
  | header hst hk ht =>
    subst ht
    have hstream := streamOrdered_unitFrame h (by simp [hst, St.inData]) (by simp [hk])
      (headerDone_frames (kind s.cfg ((afterData s).acc.truncate 16) == .srcCap)
        ((afterData s).acc.truncate 16) (afterData s))
      (by rw [headerDone_eq, dataSymbol_cfg]) (by rw [headerDone_eq, dataSymbol_cur])
      (dataSymbol_cur _ _) (dataSymbol_unitStart _ _) (by simp)
    refine timeInv_of_opened ?_ ?_ hstream ?_ ?_ ?_ <;> rw [headerDone_eq]
    · dsimp only
      split <;> rfl
    · rw [dataSymbol_bph, hb]
    · rw [dataSymbol_symCnt, hcnt]
  | object hst hk ht => exact timeInv_object h hst (by simp [hk]) hb hcnt ht
  | trailer hst hk ht =>
    subst ht
    have hstream := streamOrdered_unitFrame h (by simp [hst, St.inData]) (by simp [hk])
      (crcDone_frames (afterData s)) (by rw [crcDone_eq, dataSymbol_cfg])
      (by rw [crcDone_eq, dataSymbol_cur]) (dataSymbol_cur _ _) (dataSymbol_unitStart _ _) (by simp)
    refine timeInv_of_opened ?_ ?_ hstream ?_ ?_ ?_ <;> rw [crcDone_eq]
    · rfl
    · rw [dataSymbol_bph, hb]
    · rw [dataSymbol_symCnt, hcnt]
  | eop hst ht =>
    subst ht
    have hstream : ∀ d : Field, StreamOrdered (emit .eop d 0#64 s.symStart s.cur s) := fun d =>
      streamOrdered_append h.stream rfl rfl rfl rfl h.symbol.le_cur (fun hy => by cases hy)
        (startsInOrder_of_ends_le h.stream h.symbol.ends_le)
    obtain ⟨-, heop⟩ | ⟨-, heop⟩ := eopSymbol_cases s.symSr s <;> rw [heop]
    · have hs1 := hstream 1#64
      exact timeInv_of_not_inPacket rfl ⟨hs1.1, hs1.2, hs1.3, hs1.4, hs1.5⟩ (fun hy => by cases hy) hmid
        (fun hy => by cases hy)
    · have hs0 := hstream 0#64
      exact timeInv_enterSearch (s := signal .eopError s.cur (emit .eop 0#64 0#64 s.symStart s.cur s))
        ⟨hs0.1, hs0.2, hs0.3, hs0.4, hs0.5⟩ hmid

/-- The fifth bit of a symbol: the symbol in hand started with an earlier one. -/
theorem symbolOrdered_symbolReady {s : State} (h : TimeInv s) (hs : s.st.inPacket = true) {e : Edge}
    (hle : s.cur ≤ e.t) (hn : s.symCnt = 4#3) (rest : List Edge) (b : Bool) (t0 : Sample) :
    SymbolOrdered (symbolReady s e rest b t0) := by
  have hle' : s.cur.toNat ≤ e.t.toNat := hle
  refine ⟨streamOrdered_of_le (streamOrdered_of_timeInv h) rfl rfl hle', ?_, fun hd ho => ?_,
    h.ends_le_unitStart hs⟩
  · exact inUnit_of_le (s := s) (inUnit_symStart h hs (by simp [hn])) rfl rfl hle'
  · exact inUnit_of_le (s := s) (inUnit_byteStart h hd ho) rfl rfl hle'

/-! ### The whole step -/

theorem timeInv_resetWith (c : Cfg) (s : State) : TimeInv (resetWith c s) :=
  timeInv_of_not_inPacket rfl ⟨by simp [resetWith, State.reset], by simp [resetWith, State.reset], .nil,
    .nil, by simp [resetWith, State.reset]⟩ (fun h => by cases h) (fun h => by cases h) fun _ => rfl

/-- Settles O41: by what the step does. -/
theorem stepKeepsTimeInvariant : Obligations.StepKeepsTimeInvariant := by
  intro s t h hstep
  have hstream := streamOrdered_of_timeInv h
  cases step_cases s t hstep with
  | reset c hr ha ht => exact ht ▸ timeInv_resetWith c s
  | hold hr hq ht =>
    subst ht
    exact ⟨h.1, h.2, h.3, h.4, h.5, h.6, h.7, h.8, h.9, h.10, h.11, h.12, h.13, h.14, h.15, h.16, h.17,
      h.18, h.19⟩
  | position e rest he hs ht =>
    subst ht
    have hempty := h.frames_empty hs
    refine timeInv_enterSearch (s := { consume e rest (clearEvents s) with cur := e.t, bph := .boundary })
      ?_ (fun hm => by cases hm)
    constructor <;> simp [hempty]
  | backward e rest he hs hlt ht =>
    subst ht
    exact timeInv_of_not_inPacket rfl
      ⟨hstream.1, hstream.2, hstream.3, hstream.4, hstream.5⟩ (fun hy => by cases hy)
      (fun hm => ⟨h.bitT0_le hm, h.ends_le_bitT0 hm⟩) (fun hy => by cases hy)
  | trailing e rest he hs hle ht =>
    subst ht
    have hle' : s.cur.toNat ≤ e.t.toNat := hle
    exact timeInv_enterSearch (s := { consume e rest (clearEvents s) with cur := e.t })
      (streamOrdered_of_le hstream rfl rfl hle')
      (fun hm => ⟨(h.bitT0_le hm).trans hle', h.ends_le_bitT0 hm⟩)
  | midBit e rest he hs hle hb hw ht => exact ht ▸ timeInv_enterMid h hle _ rest
  | searchBit e rest b t0 he hs hle hc ht =>
    exact ht ▸ timeInv_preambleBit (timeInv_afterBit h hle rest b t0) hs rfl b
  | symbolBit e rest b t0 he hs hle hc hn ht =>
    exact ht ▸ timeInv_shiftBit (timeInv_afterBit h hle rest b t0) hs rfl
      (inUnit_of_le (inUnit_of_closes h hs hc) rfl rfl hle) b
  | symbol e rest b t0 he hs hle hc hn ht =>
    exact timeInv_runSymbol (symbolOrdered_symbolReady h hs hle hn rest b t0) hs rfl rfl ht

end Sys2Proof.Timing
end


section
/-! Laws of every step of a run: it does not stop (R310), recovers bits near the ideal (R121), keeps the
cursor's order (R23) and the list (R40), and faults and halts only where the rules say (R214, R276). The
start of a session has the invariants (R300, R302). -/

namespace Sys2Proof.Runs

open Sys2Proof Sys2Proof.Machine Sys2Proof.Rules Sys2Proof.FrameSync Sys2Proof.StepRules
open Sys2Proof.Control Sys2Proof.Timing Sys2Proof.Reports

/-! ### No step of a run stops (R98, R157, R310) -/

/-- R45(e), (f): the object in hand has an entry in the list's registers. -/
theorem objIndex_lt {s : State} (h : ControlInv s) (hs : s.st = .readPayload) :
    s.objIndex.toNat < 7 := by
  have hpos := h.remaining_pos hs
  have hprog := h.progress hs
  have hndo := (ndo s.hdr).isLt
  omega

theorem runUnit_isNext {s : State} (h : s.st = .readPayload → s.objIndex.toNat < 7) :
    ∃ t, runUnit s = .next t := by
  cases hst : s.st with
  | awaitSop =>
    rw [runUnit_awaitSop s hst]
    cases sopClassify s.cfg s.sopRx <;> exact ⟨_, rfl⟩
  | awaitHeader => exact ⟨_, runUnit_awaitHeader s hst⟩
  | readPayload =>
    rw [runUnit_readPayload s hst]
    obtain ⟨u, hu⟩ := objectPart_isNext (kind s.cfg s.hdr) s.acc s.unitStart (PacketFsm.coverObject s)
      (h hst)
    exact ⟨_, (objectDone_eq_next _ _ _).2 ⟨u, hu, rfl⟩⟩
  | awaitCrc => exact ⟨_, runUnit_awaitCrc s hst⟩
  | _ => exact ⟨s, by simp only [runUnit, hst]⟩

/-- A completed symbol is answered: the bounds of the invariant leave no register index out of range. -/
theorem runSymbol_isNext {s : State} (h : ControlInv s) : ∃ t, runSymbol s = .next t := by
  have unit : ∀ u, exec (decodeSym s.symSr) s = .next u →
      (u.st = .readPayload → u.objIndex.toNat < 7) → ∃ t, runSymbol s = .next t := by
    intro u hu hobj
    rw [runSymbol, hu, andThen_next]
    cases lastOfUnit s
    · exact ⟨_, rfl⟩
    · exact runUnit_isNext hobj
  have hexec := exec_decodeSym s.symSr s
  unfold symbolMeaning at hexec
  cases hst : s.st <;> simp only [hst] at hexec
  case awaitSop =>
    have hle := h.unitSym_le (.inl hst)
    rw [sopSymbol, dif_pos (by omega)] at hexec
    exact unit _ hexec fun hr => by simp [hst] at hr
  case readPayload => exact unit _ hexec fun _ => by simpa using objIndex_lt h hst
  case awaitHeader => exact unit _ hexec fun hr => by simp [hst] at hr
  case awaitCrc => exact unit _ hexec fun hr => by simp [hst] at hr
  case awaitEop =>
    refine unit _ hexec fun hr => ?_
    obtain ⟨-, heop⟩ | ⟨-, heop⟩ := eopSymbol_cases s.symSr s <;> rw [heop] at hr
    · cases hr
    · rw [enterSearch_st, searchState_eq] at hr
      split at hr <;> cases hr
  all_goals exact unit _ hexec fun hr => by simp [hst] at hr

/-- A recovered bit is answered, and recovery goes on from where it was (R112, R113, R116). -/
theorem deliverBit_isNext {s : State} (h : ControlInv s)
    (hs : s.st = .searchPreamble ∨ s.st.inPacket = true) (b : Bool) (t0 : Sample) :
    ∃ t, deliverBit b t0 s = .next t ∧ SameRecovery s t := by
  rcases hs with hs | hs
  · exact ⟨_, by simp only [deliverBit, hs], sameRecovery_preambleBit b s⟩
  rw [deliverBit_of_inPacket hs]
  rcases h.symCnt_le.lt_or_eq with hn | hn
  · exact ⟨_, symbolBit_of_lt hn b t0, sameRecovery_shiftBit b t0 s⟩
  · rw [symbolBit_of_eq (BitVec.eq_of_toNat_eq hn)]
    obtain ⟨t, ht⟩ := runSymbol_isNext (s := { s with symSr := setSymBit s.symSr 4 b, symCnt := 0#3 })
      (controlInv_of_inPacket hs (Nat.zero_le _) h.unitSym_le
        (fun hr => ⟨h.remaining_pos hr, h.progress hr⟩) h.sopType_le)
    have hsame := sameRecovery_runSymbol ht
    exact ⟨t, ht, hsame.1, hsame.2, hsame.3, hsame.4, hsame.5, hsame.6, hsame.7, hsame.8⟩

/-- R112, R113, R116: the step that completes a bit, with what recovery leaves. -/
theorem step_of_closes {s : State} (h : ControlInv s) {e : Edge} {rest : List Edge} {b : Bool}
    {t0 : Sample} (he : edgeAt s e rest) (hs : s.st = .searchPreamble ∨ s.st.inPacket = true)
    (hle : s.cur ≤ e.t) (hc : closes s e b t0) :
    ∃ t, step s = .next t ∧ SameRecovery (afterBit s e rest b t0) t := by
  rw [step_eq_deliverBit he hs hle hc]
  exact deliverBit_isNext (controlInv_afterBit h hs e rest b t0) hs b t0

/-- The state an edge is taken in: it positions the cursor, skips a trailing edge, or recovers bits. -/
theorem takes_edge_cases {s : State} (h1 : s.st ≠ .halted) (h2 : s.st ≠ .faulted) :
    s.st = .resetWait ∨ s.st = .done ∨ s.st = .searchPreamble ∨ s.st.inPacket = true := by
  cases hst : s.st <;> simp_all [St.inPacket]

/-- Settles O43: a reset is admitted, a hold answers, and an edge is answered in each state that takes
one. -/
theorem stepNeverStopsInARun : Obligations.StepNeverStopsInARun := by
  intro s h hadmitted
  cases hr : s.resetReq with
  | some c => exact ⟨_, by rw [step_eq_takeReset hr, takeReset, if_pos (hadmitted c hr)]⟩
  | none =>
  by_cases hq : s.input = [] ∨ s.st = .halted ∨ s.st = .faulted
  · exact ⟨_, step_eq_hold hr hq⟩
  simp only [not_or] at hq
  obtain ⟨hinput, h1, h2⟩ := hq
  obtain ⟨e, rest, hinput⟩ := List.exists_cons_of_ne_nil hinput
  have he : edgeAt s e rest := ⟨hr, hinput⟩
  by_cases hwait : s.st = .resetWait
  · exact ⟨_, PacketFsm.stepPositionsTheCursor s e rest he hwait⟩
  by_cases hlt : e.t < s.cur
  · exact ⟨_, stepFaultsOnABackwardEdge s e rest he hlt hwait h1 h2⟩
  have hle : s.cur ≤ e.t := BitVec.not_lt.mp hlt
  rcases takes_edge_cases h1 h2 with hs | hs | hs
  · exact absurd hs hwait
  · exact ⟨_, PacketFsm.stepSkipsTheTrailingEdge s e rest he hs hle⟩
  · rcases midBit_or_closes s e with ⟨hb, hw⟩ | ⟨b, t0, hc⟩
    · exact ⟨_, step_eq_enterMid he hs hle hb hw⟩
    · obtain ⟨t, ht, -⟩ := step_of_closes h he hs hle hc
      exact ⟨t, ht⟩

/-! ### Bits near the ideal (R111, R114, R121) -/

/-- R111: the window of the spec in exact units. -/
theorem oneWindow_iff {c : Cfg} (hw : c.window = windowSpec) (d : Nat) :
    oneWindow c d = true ↔ 3 * c.sampleRate ≤ 8 * c.bitRate * d ∧ 8 * c.bitRate * d ≤ 5 * c.sampleRate := by
  simp [oneWindow, hw, windowSpec, bandsContain, Band.contains, le_iff_lt_or_eq]

/-- R114: the glitch threshold of the spec in exact units. -/
theorem glitchFloor_iff {c : Cfg} (hg : c.glitch = glitchSpec) (d : Nat) :
    glitchFloor c d = true ↔ 4 * c.bitRate * d < c.sampleRate := by
  simp [glitchFloor, hg, glitchSpec, bandsContain, Band.contains]

/-- Settles O12: each list of bands is one band, whose bounds are the rule's. -/
theorem intervalPredicatesAreTheSpecs : Obligations.IntervalPredicatesAreTheSpecs := fun _ d hw hg =>
  ⟨oneWindow_iff hw d, glitchFloor_iff hg d⟩

theorem runSteps_one (s : State) : runSteps 1 s = step s := by
  rw [runSteps]
  cases step s <;> rfl

/-- Settles O32: an interval within a quarter of a half period of the half period is in the window, and
one so near a whole period is above it. -/
theorem bitsNearIdealAreRecovered : Obligations.BitsNearIdealAreRecovered := by
  intro s err h hr hb hs hadm hw herr
  have hrate : 0 < s.cfg.bitRate ∧ 4 * s.cfg.bitRate ≤ s.cfg.sampleRate :=
    ⟨((admitted_iff _).1 hadm).1, ((admitted_iff _).1 hadm).2.1⟩
  have hscale : ∀ d : Nat, 8 * s.cfg.bitRate * d = 4 * (2 * s.cfg.bitRate * d) := fun d => by ring
  constructor
  · intro e1 e2 rest hinput hle1 hle2 d hhi hlo
    have hwin : oneWindow s.cfg (interval s.cur e1.t) = true := by
      rw [oneWindow_iff hw, hscale]
      change 3 * s.cfg.sampleRate ≤ 4 * (2 * s.cfg.bitRate * d) ∧ 4 * (2 * s.cfg.bitRate * d) ≤ _
      omega
    have he1 : edgeAt s e1 (e2 :: rest) := ⟨hr, hinput⟩
    have hstep1 := stepTakesAMidBitEdge s e1 (e2 :: rest) he1 hs hle1 hb hwin
    obtain ⟨t, hstep2, hsame⟩ := step_of_closes (b := true) (t0 := s.cur)
      (stepKeepsControlInvariant _ _ h hstep1) (e := e2) (rest := rest) ⟨hr, rfl⟩ hs hle2
      (.inl ⟨rfl, rfl, rfl⟩)
    refine ⟨t, ?_, hsame.cur, hsame.bph, hsame.input, hsame.markers⟩
    rw [runSteps, hstep1, andThen_next, runSteps_one, hstep2]
  · intro e rest hinput hle d hhi hlo
    have hwin : oneWindow s.cfg (interval s.cur e.t) = false := by
      rw [Bool.eq_false_iff, ne_eq, oneWindow_iff hw, hscale]
      change ¬ (3 * s.cfg.sampleRate ≤ 4 * (2 * s.cfg.bitRate * d) ∧ 4 * (2 * s.cfg.bitRate * d) ≤ _)
      omega
    obtain ⟨t, hstep, hsame⟩ := step_of_closes h (e := e) (rest := rest) ⟨hr, hinput⟩ hs hle
      (.inr ⟨hb, hwin, rfl, rfl⟩)
    exact ⟨t, (runSteps_one s).trans hstep, hsame.cur, hsame.bph, hsame.input, hsame.markers⟩

/-! ### The start of a session (R300, R302) -/

theorem invariants_resetWith (c : Cfg) (s : State) :
    ControlInv (resetWith c s) ∧ TimeInv (resetWith c s) ∧ FramesInv (resetWith c s) :=
  ⟨controlInv_resetWith c s, timeInv_resetWith c s, ⟨by simp [resetWith, State.reset], Nat.zero_le _⟩⟩

/-- Settles O40: `State.reset` and the start of a session are what a reset leaves. -/
theorem resetHasTheInvariants : Obligations.ResetHasTheInvariants := by
  refine ⟨invariants_resetWith Cfg.c0 State.reset, fun c es => ⟨fun ha => ?_, fun ha => ?_⟩⟩
  · exact ⟨_, if_pos ha, rfl, rfl, rfl, invariants_resetWith c _⟩
  · exact if_neg (by simp [ha])

/-! ### The cursor (R23) -/

/-- The cursor after a step that is no reset: kept, or moved to the edge taken. -/
theorem cur_of_step {s t : State} (hr : s.resetReq = none) (h : step s = .next t) :
    t.cur = s.cur ∨ ∃ e rest, edgeAt s e rest ∧ (s.st = .resetWait ∨ s.cur ≤ e.t) ∧ t.cur = e.t := by
  cases step_cases s t h with
  | reset c hr' ha ht => simp [hr] at hr'
  | hold hr hq ht => exact .inl (ht ▸ rfl)
  | position e rest he hs ht => exact .inr ⟨e, rest, he, .inl hs, ht ▸ rfl⟩
  | backward e rest he hs hlt ht => exact .inl (ht ▸ rfl)
  | trailing e rest he hs hle ht => exact .inr ⟨e, rest, he, .inr hle, ht ▸ rfl⟩
  | midBit e rest he hs hle hb hw ht => exact .inr ⟨e, rest, he, .inr hle, ht ▸ rfl⟩
  | searchBit e rest b t0 he hs hle hc ht =>
    exact .inr ⟨e, rest, he, .inr hle, ht ▸ (sameRecovery_preambleBit b _).cur⟩
  | symbolBit e rest b t0 he hs hle hc hn ht =>
    exact .inr ⟨e, rest, he, .inr hle, ht ▸ (sameRecovery_shiftBit b t0 _).cur⟩
  | symbol e rest b t0 he hs hle hc hn ht =>
    exact .inr ⟨e, rest, he, .inr hle, (sameRecovery_runSymbol ht).cur⟩

/-- Settles O46: outside `RESET_WAIT` the edge the cursor moves to is not below it. -/
theorem cursorNeverDecreases : Obligations.CursorNeverDecreases := by
  intro s t hr hs h
  obtain hcur | ⟨e, rest, -, hw | hle, hcur⟩ := cur_of_step hr h
  · exact hcur ▸ BitVec.le_refl _
  · exact absurd hw hs
  · exact hcur ▸ hle

/-! ### The list (R40, R203) -/

/-- What a completed symbol does to the list: nothing, but for Source Capabilities. -/
theorem list_of_runSymbol {s t : State} (h : runSymbol s = .next t) :
    (t.pdoList = s.pdoList ∧ t.pdoCount = s.pdoCount) ∨
    (s.st = .awaitHeader ∧ t.st = .readPayload ∧ kind s.cfg t.hdr = .srcCap ∧
      t.pdoList = s.pdoList ∧ t.pdoCount = 0#3) ∨
    (s.st = .readPayload ∧ kind s.cfg s.hdr = .srcCap ∧ t.pdoCount = s.objIndex + 1#3 ∧
      ∀ k : Fin 7, s.objIndex.toNat ≠ k → t.pdoList[k] = s.pdoList[k]) := by
  cases runSymbol_cases s t h with
  | idle hs ht => exact .inl ⟨ht ▸ rfl, ht ▸ rfl⟩
  | sopStored hs hk ht => exact .inl ⟨ht ▸ rfl, ht ▸ rfl⟩
  | sopAccepted v hs hk hv ht => exact .inl ⟨ht ▸ rfl, ht ▸ rfl⟩
  | sopRejected hs hk hv ht => exact .inl ⟨ht ▸ rfl, ht ▸ rfl⟩
  | data hs hl ht => exact .inl ⟨by rw [ht, dataSymbol_pdoList], by rw [ht, dataSymbol_pdoCount]⟩
  | header hs hk ht =>
    rw [headerDone_eq] at ht
    subst ht
    by_cases hc : (kind s.cfg ((afterData s).acc.truncate 16) == .srcCap &&
        ndo ((afterData s).acc.truncate 16) != 0#3) = true
    · obtain ⟨hkind, hndo⟩ : kind s.cfg ((afterData s).acc.truncate 16) = .srcCap ∧
          ndo ((afterData s).acc.truncate 16) ≠ 0#3 := by simpa using hc
      exact .inr (.inl ⟨hs, if_neg hndo, hkind, dataSymbol_pdoList _ _, if_pos hc⟩)
    · exact .inl ⟨dataSymbol_pdoList _ _, (if_neg hc).trans (dataSymbol_pdoCount _ _)⟩
  | object hs hk ht =>
    obtain ⟨u, hu, rfl⟩ := (objectDone_eq_next _ _ _).1 ht
    rw [nextObject_eq]
    cases objectPart_cases _ _ _ _ _ hu with
    | stored hkind hi hu =>
      subst hu
      refine .inr (.inr ⟨hs, hkind, by simp, fun k hne => ?_⟩)
      have hwrite := writePdo_getElem s.cfg s.objIndex.toNat k (afterData s).acc s.pdoList k.isLt
      rw [if_neg fun hk => hne hk.1] at hwrite
      simpa using hwrite
    | silent hkind hu => exact .inl (by subst hu; simp)
    | resolved p hkind hi hp hu => exact .inl (by subst hu; simp)
    | unresolved hkind hi hp hu => exact .inl (by subst hu; simp)
    | vdmHeader hkind hi hu => exact .inl (by subst hu; simp)
    | generic hkind hu => exact .inl (by subst hu; simp)
  | trailer hs hk ht =>
    rw [crcDone_eq] at ht
    exact .inl ⟨by rw [ht, dataSymbol_pdoList], by rw [ht, dataSymbol_pdoCount]⟩
  | eop hs ht =>
    obtain ⟨-, heop⟩ | ⟨-, heop⟩ := eopSymbol_cases s.symSr s <;>
      exact .inl ⟨by rw [ht, heop]; rfl, by rw [ht, heop]; rfl⟩

/-- Settles O48: only a step that completes a symbol can write the list. -/
theorem listIsWrittenBySourceCapabilitiesOnly : Obligations.ListIsWrittenBySourceCapabilitiesOnly := by
  intro s t hr h hne
  have kept : t.pdoList = s.pdoList ∧ t.pdoCount = s.pdoCount → False := fun ⟨hl, hc⟩ => by
    simp [hl, hc] at hne
  cases step_cases s t h with
  | reset c hr' ha ht => simp [hr] at hr'
  | hold hr hq ht => exact (kept ⟨ht ▸ rfl, ht ▸ rfl⟩).elim
  | position e rest he hs ht => exact (kept ⟨ht ▸ rfl, ht ▸ rfl⟩).elim
  | backward e rest he hs hlt ht => exact (kept ⟨ht ▸ rfl, ht ▸ rfl⟩).elim
  | trailing e rest he hs hle ht => exact (kept ⟨ht ▸ rfl, ht ▸ rfl⟩).elim
  | midBit e rest he hs hle hb hw ht => exact (kept (by simp [ht])).elim
  | searchBit e rest b t0 he hs hle hc ht =>
    refine (kept ?_).elim
    obtain ⟨-, hb⟩ | ⟨-, hb⟩ := preambleBit_cases b (afterBit s e rest b t0) <;>
      rw [ht, hb, preambleCount_eq] <;> exact ⟨rfl, rfl⟩
  | symbolBit e rest b t0 he hs hle hc hn ht =>
    refine (kept ?_).elim
    rw [ht, shiftBit]
    split <;> exact ⟨rfl, rfl⟩
  | symbol e rest b t0 he hs hle hc hn ht =>
    rcases list_of_runSymbol ht with hkept | hwritten
    · exact (kept hkept).elim
    · exact hwritten

/-! ### Halting and faulting (R119, R214, R276) -/

/-- Where a completed symbol of a packet leads: it stays in the packet, ends it, or fails it with its
Frame and restarts the search. -/
theorem st_of_runSymbol {s t : State} (hs : s.st.inPacket = true) (h : runSymbol s = .next t) :
    t.st.inPacket = true ∨ t.st = .done ∨
    (t.st = searchState s.stopReq ∧ ∃ f, t.frames = s.frames ++ [f] ∧
      (s.st = .awaitSop ∧ f.type = .sopError ∨ s.st = .awaitEop ∧ f.type = .eop ∧ f.data1 = 0#64)) := by
  cases runSymbol_cases s t h with
  | idle hi ht => simp [hs] at hi
  | sopStored hst hk ht => exact .inl (ht ▸ hs)
  | sopAccepted v hst hk hv ht => exact .inl (ht ▸ rfl)
  | sopRejected hst hk hv ht =>
    subst ht
    exact .inr (.inr ⟨rfl, _, sopError_frames _, .inl ⟨hst, rfl⟩⟩)
  | data hst hl ht => exact .inl (by rw [ht, dataSymbol_st]; exact hs)
  | header hst hk ht =>
    left
    rw [ht, headerDone_eq]
    dsimp only
    split <;> rfl
  | object hst hk ht =>
    left
    obtain ⟨u, hu, rfl⟩ := (objectDone_eq_next _ _ _).1 ht
    obtain ⟨fs, -, hu⟩ := objectPart_eq_next _ _ _ _ _ hu
    rw [nextObject_eq, hu]
    dsimp only
    split <;> simp [hst, St.inPacket]
  | trailer hst hk ht =>
    left
    rw [ht, crcDone_eq]
    rfl
  | eop hst ht =>
    obtain ⟨-, heop⟩ | ⟨-, heop⟩ := eopSymbol_cases s.symSr s <;> rw [ht, heop]
    · exact .inr (.inl rfl)
    · exact .inr (.inr ⟨rfl, _, emit_frames .., .inr ⟨hst, rfl, rfl⟩⟩)

theorem searchState_eq_halted {b : Bool} (h : searchState b = .halted) : b = true := by
  cases b
  · cases h
  · rfl

theorem searchState_ne_faulted (b : Bool) : searchState b ≠ .faulted := by
  cases b <;> decide

/-- Settles O50: the search is entered or goes on at a cancellation point only. -/
theorem haltsOnlyAtACancellationPoint : Obligations.HaltsOnlyAtACancellationPoint := by
  intro s t hne h hhalt
  cases step_cases s t h with
  | reset c hr ha ht => rw [ht] at hhalt; cases hhalt
  | hold hr hq ht => exact absurd ((congrArg State.st ht).symm.trans hhalt) hne
  | position e rest he hs ht =>
    rw [ht] at hhalt
    exact ⟨e, rest, he, searchState_eq_halted hhalt, .inl hs⟩
  | backward e rest he hs hlt ht => rw [ht] at hhalt; cases hhalt
  | trailing e rest he hs hle ht =>
    rw [ht] at hhalt
    exact ⟨e, rest, he, searchState_eq_halted hhalt, .inr (.inl hs)⟩
  | midBit e rest he hs hle hb hw ht => exact absurd (by simpa [ht] using hhalt) hne
  | searchBit e rest b t0 he hs hle hc ht =>
    have hmark := (sameRecovery_preambleBit b (afterBit s e rest b t0)).markers
    rw [← ht] at hmark
    obtain ⟨-, hb⟩ | ⟨-, hb⟩ := preambleBit_cases b (afterBit s e rest b t0)
    · rw [ht, hb] at hhalt
      cases hhalt
    · have hstop : e.stopReq = true := by
        rw [ht, hb] at hhalt
        by_contra hns
        have : s.st = .halted := (if_neg hns).symm.trans hhalt
        exact hne this
      have hframes : t.frames = s.frames ++ [] := by
        rw [ht, hb, preambleCount_eq, List.append_nil]
        rfl
      exact ⟨e, rest, he, hstop, .inr (.inr (.inl ⟨hs, newFrames_of_append hframes, _, hmark⟩))⟩
  | symbolBit e rest b t0 he hs hle hc hn ht =>
    have : t.st = s.st := by
      rw [ht, shiftBit]
      split <;> rfl
    exact absurd (this.symm.trans hhalt) hne
  | symbol e rest b t0 he hs hle hc hn ht =>
    obtain hp | hd | ⟨hst, f, hf, hcase⟩ := st_of_runSymbol (s := symbolReady s e rest b t0) hs ht
    · simp [hhalt, St.inPacket] at hp
    · simp [hhalt] at hd
    · refine ⟨e, rest, he, searchState_eq_halted (hst.symm.trans hhalt), ?_⟩
      have hf' : t.frames = s.frames ++ [f] := hf
      rw [newFrames_of_append hf']
      rcases hcase with ⟨hst, hy⟩ | ⟨hst, hy, hd⟩
      · exact .inr (.inr (.inr (.inl ⟨hst, by simp [unitTypes, hy]⟩)))
      · exact .inr (.inr (.inr (.inr ⟨hst, f, rfl, hy, hd⟩)))

/-- R276: a step into `FAULTED` has met an edge below the cursor. -/
theorem backward_of_faulted {s t : State} (hne : s.st ≠ .faulted) (h : step s = .next t)
    (hf : t.st = .faulted) :
    ∃ (e : Edge) (rest : List Edge), edgeAt s e rest ∧ e.t < s.cur ∧ s.st ≠ .resetWait := by
  cases step_cases s t h with
  | reset c hr ha ht => rw [ht] at hf; cases hf
  | hold hr hq ht => exact absurd ((congrArg State.st ht).symm.trans hf) hne
  | position e rest he hs ht => exact absurd (ht ▸ hf) (searchState_ne_faulted _)
  | backward e rest he hs hlt ht =>
    refine ⟨e, rest, he, hlt, fun hw => ?_⟩
    simp [hw, St.inPacket] at hs
  | trailing e rest he hs hle ht => exact absurd (ht ▸ hf) (searchState_ne_faulted _)
  | midBit e rest he hs hle hb hw ht => exact absurd (by simpa [ht] using hf) hne
  | searchBit e rest b t0 he hs hle hc ht =>
    obtain ⟨-, hb⟩ | ⟨-, hb⟩ := preambleBit_cases b (afterBit s e rest b t0) <;> rw [ht, hb] at hf
    · cases hf
    · dsimp only at hf
      split at hf
      · cases hf
      · exact absurd hf hne
  | symbolBit e rest b t0 he hs hle hc hn ht =>
    have : t.st = s.st := by
      rw [ht, shiftBit]
      split <;> rfl
    exact absurd (this.symm.trans hf) hne
  | symbol e rest b t0 he hs hle hc hn ht =>
    obtain hp | hd | ⟨hst, -⟩ := st_of_runSymbol (s := symbolReady s e rest b t0) hs ht
    · simp [hf, St.inPacket] at hp
    · simp [hf] at hd
    · exact absurd (hst.symm.trans hf) (searchState_ne_faulted _)

/-- The input after a step that is no reset: kept, or without the edge taken. -/
theorem input_of_step {s t : State} (hr : s.resetReq = none) (h : step s = .next t) :
    (t.input = s.input ∧ t.cur = s.cur ∧ t.st = s.st) ∨ ∃ e rest, edgeAt s e rest ∧ t.input = rest ∧
      (e.t < s.cur ∧ s.st ≠ .resetWait ∨ t.cur = e.t) := by
  cases step_cases s t h with
  | reset c hr' ha ht => simp [hr] at hr'
  | hold hr hq ht => exact .inl ⟨ht ▸ rfl, ht ▸ rfl, ht ▸ rfl⟩
  | position e rest he hs ht => exact .inr ⟨e, rest, he, ht ▸ rfl, .inr (ht ▸ rfl)⟩
  | backward e rest he hs hlt ht =>
    refine .inr ⟨e, rest, he, ht ▸ rfl, .inl ⟨hlt, fun hw => ?_⟩⟩
    simp [hw, St.inPacket] at hs
  | trailing e rest he hs hle ht => exact .inr ⟨e, rest, he, ht ▸ rfl, .inr (ht ▸ rfl)⟩
  | midBit e rest he hs hle hb hw ht =>
    exact .inr ⟨e, rest, he, by simp [ht], .inr (by simp [ht])⟩
  | searchBit e rest b t0 he hs hle hc ht =>
    have hsame := sameRecovery_preambleBit b (afterBit s e rest b t0)
    exact .inr ⟨e, rest, he, ht ▸ hsame.input, .inr (ht ▸ hsame.cur)⟩
  | symbolBit e rest b t0 he hs hle hc hn ht =>
    have hsame := sameRecovery_shiftBit b t0 (afterBit s e rest b t0)
    exact .inr ⟨e, rest, he, ht ▸ hsame.input, .inr (ht ▸ hsame.cur)⟩
  | symbol e rest b t0 he hs hle hc hn ht =>
    have hsame := sameRecovery_runSymbol ht
    exact .inr ⟨e, rest, he, hsame.input, .inr hsame.cur⟩

/-- R282: taking the first edge of an ordered input leaves the others at or after it. -/
theorem inputOrdered_of_step {s t : State} (h : inputOrdered s) (hstep : step s = .next t) :
    inputOrdered t := by
  obtain ⟨hpair, hcur⟩ := h
  cases hr : s.resetReq with
  | some c =>
    rw [step_eq_takeReset hr, takeReset] at hstep
    split at hstep
    · cases hstep
      exact ⟨hpair, fun hw => absurd rfl hw⟩
    · cases hstep
  | none =>
  obtain ⟨hi, hc, hst⟩ | ⟨e, rest, he, hi, hc⟩ := input_of_step hr hstep
  · exact ⟨hi ▸ hpair, fun hw => by rw [hi, hc]; exact hcur (hst ▸ hw)⟩
  · rw [he.2, List.pairwise_cons] at hpair
    obtain ⟨hlt, hw⟩ | hc := hc
    · exact absurd (hcur hw e (by simp [he.2])) (BitVec.not_le.mpr hlt)
    · exact ⟨hi ▸ hpair.2, fun _ f hf => by rw [hc]; exact hpair.1 f (hi ▸ hf)⟩

/-- Settles O49: an edge below the cursor is the only way in, and an ordered input has none. -/
theorem faultedOnlyByABackwardEdge : Obligations.FaultedOnlyByABackwardEdge := by
  refine ⟨fun s t => backward_of_faulted, fun c es s hl hsess => ?_, fun s t ho hne h => ?_⟩
  · obtain ⟨hpair, -⟩ := hl
    rw [session, takeReset] at hsess
    split at hsess
    · cases hsess
      exact ⟨⟨hpair, fun hw => absurd rfl hw⟩, fun hf => by cases hf⟩
    · cases hsess
  · refine ⟨inputOrdered_of_step ho h, fun hf => ?_⟩
    obtain ⟨e, rest, he, hlt, hw⟩ := backward_of_faulted hne h hf
    exact absurd (ho.2 hw e (by simp [he.2])) (BitVec.not_le.mpr hlt)

end Sys2Proof.Runs
end


section
/-! The instructions one by one: a symbol by its position (R135, R150 to R155), an object by its class
(R197 to R202), the bits of the preamble in sequence (R131, R132), and two consumer views (R250, R254). -/

namespace Sys2Proof.Instructions

open Sys2Proof Sys2Proof.Machine Sys2Proof.Rules Sys2Proof.PacketFsm Sys2Proof.FrameSync
open Sys2Proof.StopRequest

/-! ### Symbols by position -/

theorem symbolMeaning_of_inData {s : State} (hs : s.st.inData = true) (x : Sym) :
    symbolMeaning x s = .next (dataSymbol (dec5 s.cfg x) s) := by
  unfold symbolMeaning
  cases hst : s.st <;> simp_all [St.inData]

theorem symbolMeaning_of_not_inPacket {s : State} (hs : s.st.inPacket = false) (x : Sym) :
    symbolMeaning x s = .next s := by
  unfold symbolMeaning
  cases hst : s.st <;> simp_all [St.inPacket]

theorem symbolMeaning_awaitSop {s : State} (hs : s.st = .awaitSop) (x : Sym) :
    symbolMeaning x s = sopSymbol x s := by
  simp only [symbolMeaning, hs]

/-- Settles O13: the symbol's register is the one counted. -/
theorem symbolInSopPositionIsStored : Obligations.SymbolInSopPositionIsStored := by
  intro p hp s k hs hk
  have hlt : s.unitSym.toNat < 4 := hk ▸ k.isLt
  rw [exec_of_mem_symbolRows hp, symbolMeaning_awaitSop hs, sopSymbol, dif_pos hlt]
  simp only [hk]

/-- Settles O14: the rule of a data symbol, at each parity of the count. -/
theorem symbolInDataPositionIsAssembled : Obligations.SymbolInDataPositionIsAssembled := by
  intro p hp s hs
  have hdata : s.st.inData = true := by rcases hs with h | h | h <;> rw [h] <;> rfl
  have hpar : s.unitSym.getLsbD 0 = decide (s.unitSym.toNat % 2 = 1) := by
    simp [BitVec.getLsbD, Nat.testBit_zero]
  dsimp only
  rw [exec_of_mem_symbolRows hp, symbolMeaning_of_inData hdata, dataSymbol_eq]
  have hev : (if dec5 s.cfg p.2 == s.cfg.invalidNibble then s.ev.assert .symInvalid else s.ev) =
      { s.ev with symInvalid := s.ev.symInvalid || dec5 s.cfg p.2 == s.cfg.invalidNibble } := by
    cases dec5 s.cfg p.2 == s.cfg.invalidNibble <;> simp [Events.assert]
  rw [hev]
  refine ⟨fun heven => ?_, fun hodd => ?_⟩
  · have h0 : s.unitSym.getLsbD 0 = false := by rw [hpar, heven]; rfl
    simp only [h0, Bool.false_eq_true, if_false, Bool.false_and, List.append_nil]
  · have h1 : s.unitSym.getLsbD 0 = true := by rw [hpar, hodd]; rfl
    simp only [h1, if_true, Bool.true_and]
    rfl

/-- Settles O16: a symbol has no case outside the packet. -/
theorem symbolOutsideAPacketWritesNothing : Obligations.SymbolOutsideAPacketWritesNothing :=
  fun p hp s hs => by rw [exec_of_mem_symbolRows hp, symbolMeaning_of_not_inPacket hs]

/-! ### Objects by class -/

/-- Settles O22: the part of the class, then what follows every object. -/
theorem sourcePdoIsStored : Obligations.SourcePdoIsStored := by
  intro h s k hs hk
  have hpart : sourcePdo s.acc s.unitStart (coverObject s) =
      .next { emit .sourcePdo (s.acc.zeroExtend 64) 0#64 s.unitStart s.cur (coverObject s) with
        pdoList := writePdo s.cfg s.objIndex.toNat s.acc s.pdoList
        pdoCount := s.objIndex + 1#3 } :=
    if_pos (show s.objIndex.toNat < 7 from hk ▸ k.isLt)
  have hwrite : writePdo s.cfg s.objIndex.toNat s.acc s.pdoList =
      if k < s.cfg.pdoListDepth then s.pdoList.set k s.acc else s.pdoList := by
    rw [hk, writePdo]
    by_cases hd : k < s.cfg.pdoListDepth
    · rw [dif_pos ⟨k.isLt, hd⟩, if_pos hd]
    · rw [dif_neg fun h => hd h.2, if_neg hd]
  have hexec : exec (.sourceCapabilities h) s = objectDone sourcePdo s :=
    exec_kindInstr_readPayload hs .srcCap h
  rw [hexec, ← hwrite]
  refine (congrArg (andThen · fun u => .next (nextObject u)) hpart).trans ?_
  rw [andThen_next, nextObject_eq]
  simp only [emit_st, coverObject, hs]
  rfl

/-- R199: an object whose resolution leaves the state as it was. -/
theorem request_of_pdoAt_eq_some {h : Header} {s : State} (hs : s.st = .readPayload)
    (hi : s.objIndex = 0#3) {p : Word} (hp : pdoAt (objPos s.cfg s.acc) s = some p) :
    exec (.request h) s =
      .next (afterObject [objectFrame .requestDo (p.zeroExtend 64) s] s) := by
  refine (exec_kindInstr_readPayload hs .request h).trans (objectDone_eq_afterObject hs ?_)
  have hp' : pdoAt (objPos (coverObject s).cfg s.acc) (coverObject s) = some p := hp
  refine congrArg Host.Outcome.next ?_
  rw [requestObject, if_pos (show (coverObject s).objIndex = 0#3 from hi), resolve, hp']
  rfl

/-- Settles O23: the reference is to an entry of the list, past its depth, or to none; a later object is
generic. -/
theorem requestIsResolved : Obligations.RequestIsResolved := by
  intro h s hs pos
  have hpos : objPos s.cfg s.acc = pos := rfl
  refine ⟨fun k hi hk hc hd => ?_, fun hi h1 hc hd => ?_, fun hi hbad => ?_, fun hi => ?_⟩
  · refine request_of_pdoAt_eq_some hs hi ?_
    rw [hpos, pdoAt_eq_some pos s (by omega) hc, readPdo_of_lt _ _ _ (by omega) (by omega)]
    simp only [hk, Nat.add_sub_cancel]
    rfl
  · refine request_of_pdoAt_eq_some hs hi ?_
    rw [hpos, pdoAt_eq_some pos s h1 hc, readPdo_absent _ _ _ (by omega)]
  · have hnone : pdoAt (objPos (coverObject s).cfg s.acc) (coverObject s) = none :=
      pdoAt_eq_none pos (coverObject s) hbad
    have hpart : requestObject s.acc s.unitStart (coverObject s) =
        emit .requestDo (s.acc.zeroExtend 64) refSentinel s.unitStart s.cur
          (signal .refError s.cur (coverObject s)) := by
      rw [requestObject, if_pos (show (coverObject s).objIndex = 0#3 from hi), resolve, hnone]
      rfl
    have hexec : exec (.request h) s = .next (nextObject (requestObject s.acc s.unitStart (coverObject s))) :=
      exec_kindInstr_readPayload hs .request h
    rw [hexec, hpart, nextObject_eq]
    simp only [emit_st, signal_st, coverObject, hs]
    rfl
  · exact (exec_kindInstr_readPayload hs .request h).trans
      (objectDone_eq_afterObject hs (congrArg Host.Outcome.next
        (if_neg (show ¬ (coverObject s).objIndex = 0#3 from hi))))

/-- Settles O25: one generic Frame, or none. -/
theorem otherObjectIsReported : Obligations.OtherObjectIsReported := fun h s hs =>
  ⟨(exec_kindInstr_readPayload hs .other h).trans (objectDone_eq_afterObject hs rfl),
    (exec_kindInstr_readPayload hs .control h).trans
      (objectDone_eq_afterObject hs (by simp [objectPart, coverObject]))⟩

/-! ### The preamble in sequence (R131, R132) -/

/-- R91: the last of `n + 1` alternating bits is told by the parity of `n`. -/
theorem alternating_succ (n : Nat) (b : Bool) :
    alternating (n + 1) b = alternating n b ++ [decide (n % 2 = 0) == b] := by
  induction n generalizing b with
  | zero => simp [alternating]
  | succ n ih =>
    have hpar : (decide ((n + 1) % 2 = 0) == b) = (decide (n % 2 = 0) == !b) := by
      rcases Nat.mod_two_eq_zero_or_one n with h | h <;> cases b <;> simp [h, Nat.add_mod]
    rw [alternating, ih, hpar]
    rfl

/-- The search with `n` alternating bits counted. -/
def counted (n : Nat) (s : State) : State :=
  { s with preCnt := BitVec.ofNat 6 n, preExp := decide (n % 2 = 0) }

/-- The bit expected is counted, and the other one expected next. -/
theorem preambleCount_counted (n : Nat) (s : State) :
    preambleCount (decide (n % 2 = 0)) (counted n s) = counted (n + 1) s := by
  have hexp : (!decide (n % 2 = 0)) = decide ((n + 1) % 2 = 0) := by
    rw [← decide_not, decide_eq_decide]
    omega
  rw [preambleCount_eq]
  simp only [counted, if_true, hexp, BitVec.ofNat_add]

theorem toNat_counted {n : Nat} (hn : n ≤ 63) (s : State) : (counted n s).preCnt.toNat = n := by
  rw [counted, BitVec.toNat_ofNat]
  exact Nat.mod_eq_of_lt (by omega)

theorem foldl_alternating_counted {s : State} (hst : s.st = .searchPreamble) (h0 : s.preCnt = 0#6)
    (hexp : s.preExp = true) (hstop : s.stopReq = false) (hrun : s.cfg.preambleRun ≤ 63) {n : Nat}
    (hn : n < s.cfg.preambleRun) :
    (alternating n true).foldl (fun u b => preambleBit b u) s = counted n s := by
  induction n with
  | zero => simp [alternating, counted, ← h0, ← hexp]
  | succ n ih =>
    rw [alternating_succ, List.foldl_append, ih (by omega), beq_true, List.foldl_cons, List.foldl_nil]
    obtain ⟨heq, -⟩ | ⟨-, hbit⟩ := preambleBit_cases (decide (n % 2 = 0)) (counted n s)
    · rw [preambleCount_counted, toNat_counted (by omega)] at heq
      exact absurd heq (by simp only [counted]; omega)
    · rw [hbit, preambleCount_counted]
      simp [counted, hstop, hst]

/-- Settles O33: by induction on the run, whose last bit takes the other branch of R131. -/
theorem alternatingRunCompletesThePreamble : Obligations.AlternatingRunCompletesThePreamble := by
  intro s hst h0 hexp hstop hpos hrun
  refine ⟨fun n hn => foldl_alternating_counted hst h0 hexp hstop hrun hn, ?_⟩
  obtain ⟨n, hn⟩ : ∃ n, s.cfg.preambleRun = n + 1 := ⟨_, (Nat.succ_pred_eq_of_pos hpos).symm⟩
  rw [hn, alternating_succ, List.foldl_append,
    foldl_alternating_counted hst h0 hexp hstop hrun (n := n) (by omega), beq_true, List.foldl_cons,
    List.foldl_nil]
  obtain ⟨-, hbit⟩ | ⟨hne, -⟩ := preambleBit_cases (decide (n % 2 = 0)) (counted n s)
  · rw [hbit, preambleCount_counted, preambleFound_eq]
    rfl
  · rw [preambleCount_counted, toNat_counted (by omega)] at hne
    exact absurd hn.symm hne

/-! ### Two consumer views (R250, R253, R254) -/

/-- The words a Field carries are read back from it. -/
theorem truncate_zeroExtend_word (x : Word) : ((x.zeroExtend 64 : Field).truncate 32 : Word) = x := by
  apply BitVec.eq_of_toNat_eq
  rw [BitVec.toNat_setWidth, Reports.toNat_zeroExtend_field x (by decide), Nat.mod_eq_of_lt x.isLt]

/-- R243, R247: only a reserved tag is viewed as reserved. -/
theorem pdoTag_of_reserved {p : Word} (h : pdoView p = .reserved p) : pdoTag p = .reserved := by
  unfold pdoView at h
  cases htag : pdoTag p <;> rw [htag] at h <;> cases h

/-- Settles O59: the sentinel is told first; a list entry is not the sentinel. -/
theorem unresolvedRequestIsViewedRaw : Obligations.UnresolvedRequestIsViewedRaw := by
  intro r
  refine ⟨?_, ?_, fun p hp => ?_⟩
  · rw [rdoView, truncate_zeroExtend_word]
    exact if_pos rfl
  · have hr : r.toNat < 2 ^ 32 := r.isLt
    show extract r.toNat 31 28 = _
    rw [FieldViews.extract_eq_div_mod]
    exact Nat.mod_eq_of_lt (by omega)
  · rw [rdoView, truncate_zeroExtend_word, truncate_zeroExtend_word]
    refine (if_neg (Reports.zeroExtend_word_ne_refSentinel p)).trans ?_
    rw [pdoTag_of_reserved hp]

/-- R253: the command with code 1. -/
theorem vdmCommand_eq_discoverIdentity_iff (v : Nat) :
    vdmCommand v = .discoverIdentity ↔ v % 2 ^ 5 = 1 := by
  have hcode : extract v 4 0 = v % 2 ^ 5 := by
    rw [FieldViews.extract_eq_div_mod, pow_zero, Nat.div_one]
  rw [vdmCommand, hcode]
  split <;> simp_all

theorem flagBit_iff (v k : Nat) : flagBit v k = true ↔ v / 2 ^ k % 2 = 1 := by
  rw [flagBit, FieldViews.extract_eq_div_mod, beq_iff_eq, Nat.sub_self, Nat.zero_add, pow_one]

/-- R253, R254: a structured header whose command is Discover Identity. -/
theorem isDiscoverIdentity_iff (d : Field) : isDiscoverIdentity d = true ↔
    d.toNat % 2 ^ 32 / 2 ^ 15 % 2 = 1 ∧ d.toNat % 2 ^ 32 % 2 ^ 5 = 1 := by
  rw [← flagBit_iff, ← vdmCommand_eq_discoverIdentity_iff, isDiscoverIdentity, vdmView]
  cases hflag : flagBit (d.toNat % 2 ^ 32) 15 with
  | false => simp
  | true =>
    simp only [if_true, true_and]
    cases vdmCommand (d.toNat % 2 ^ 32) <;> simp

/-- Settles O60: the report is given under exactly the header's and the message's conditions. -/
theorem discoverIdentityStubCountIsPositive : Obligations.DiscoverIdentityStubCountIsPositive := by
  intro d n v identity
  have hid : isDiscoverIdentity d = true ↔ identity := isDiscoverIdentity_iff d
  refine ⟨hid, fun k hk => ?_, fun h hn => ⟨_, if_pos (by simp [hid.2 h, hn])⟩⟩
  rw [discoverIdentityStub] at hk
  split at hk
  next hcond =>
    rw [Bool.and_eq_true, decide_eq_true_eq] at hcond
    cases hk
    exact ⟨hid.1 hcond.1, hcond.2, Nat.succ_pos _⟩
  next => cases hk

end Sys2Proof.Instructions
end


section
/-! How bytes on the wire assemble in the accumulator (R66 to R68, R153, R154). -/

namespace Sys2Proof.Assembly

open Sys2Proof Sys2Proof.Machine Sys2Proof.Rules Sys2Proof.Instructions Sys2Proof.StopRequest
open Sys2Proof.Encoding

/-! ### Bytes in the accumulator -/

/-- The accumulator after the bytes `l`, the first of which is byte `k` of its unit (R154). -/
def placeBytes : Nat → Word → List Byte → Word
  | _, acc, [] => acc
  | k, acc, x :: l => placeBytes (k + 1) (acc ||| bytePlace x k) l

/-- R153: the two nibbles of a byte give it back. -/
theorem byteOf_nibbles (x : Byte) :
    byteOf ((x.extractLsb' 0 4).zeroExtend 8) ((x.extractLsb' 4 4).zeroExtend 8) = x := by
  refine BitVec.eq_of_getLsbD_eq fun i hi => ?_
  interval_cases i <;> simp [byteOf]

theorem getLsbD_bytePlace (x : Byte) (k i : Nat) (hi : i < 32) :
    (bytePlace x k).getLsbD i = (decide (8 * k ≤ i) && x.getLsbD (i - 8 * k)) := by
  rw [bytePlace, BitVec.getLsbD_shiftLeft, BitVec.getLsbD_setWidth, decide_eq_true hi, Bool.true_and]
  by_cases h : 8 * k ≤ i
  · simp [h, show i - 8 * k < 32 by omega]
  · simp [h, show i < 8 * k by omega]

/-- R67: a byte of a value, at its place, is that part of the value. -/
theorem getLsbD_bytePlace_extract {w : Nat} (v : BitVec w) (k i : Nat) (hi : i < 32) :
    (bytePlace (v.extractLsb' (8 * k) 8) k).getLsbD i =
      (decide (8 * k ≤ i ∧ i < 8 * k + 8) && v.getLsbD i) := by
  rw [getLsbD_bytePlace _ _ _ hi, BitVec.getLsbD_extractLsb']
  by_cases h : 8 * k ≤ i
  · rw [show 8 * k + (i - 8 * k) = i by omega]
    by_cases h' : i < 8 * k + 8
    · simp [h, h', show i - 8 * k < 8 by omega]
    · simp [h, h', show ¬ i - 8 * k < 8 by omega]
  · simp [h]

/-- R67: the low two bytes of a value. -/
theorem getLsbD_placeBytes_two {w : Nat} (v : BitVec w) (i : Nat) (hi : i < 32) :
    (placeBytes 0 0#32 (bytesLE 2 v)).getLsbD i = (decide (i < 16) && v.getLsbD i) := by
  have hbytes : bytesLE 2 v = [v.extractLsb' (8 * 0) 8, v.extractLsb' (8 * 1) 8] := rfl
  simp only [hbytes, placeBytes, BitVec.getLsbD_or, getLsbD_bytePlace_extract _ _ _ hi,
    BitVec.getLsbD_zero, Bool.false_or]
  rw [← Bool.and_or_distrib_right, ← Bool.decide_or]
  congr 1
  rw [decide_eq_decide]
  omega

/-- R67: the four bytes of a value. -/
theorem placeBytes_four (v : Word) : placeBytes 0 0#32 (bytesLE 4 v) = v := by
  have hbytes : bytesLE 4 v = [v.extractLsb' (8 * 0) 8, v.extractLsb' (8 * 1) 8,
      v.extractLsb' (8 * 2) 8, v.extractLsb' (8 * 3) 8] := rfl
  refine BitVec.eq_of_getLsbD_eq fun i hi => ?_
  simp only [hbytes, placeBytes, BitVec.getLsbD_or, getLsbD_bytePlace_extract _ _ _ hi,
    BitVec.getLsbD_zero, Bool.false_or]
  simp only [← Bool.and_or_distrib_right, ← Bool.decide_or]
  rw [decide_eq_true (by omega), Bool.true_and]

theorem placeBytes_two_word (v : Word) : placeBytes 0 0#32 (bytesLE 2 v) = v &&& 0xFFFF#32 := by
  refine BitVec.eq_of_getLsbD_eq fun i hi => ?_
  have hmask : (0xFFFF#32).getLsbD i = decide (i < 16) := by
    revert i; decide
  rw [getLsbD_placeBytes_two v i hi, BitVec.getLsbD_and, hmask, Bool.and_comm]

theorem truncate_placeBytes_two (h : Header) :
    (placeBytes 0 0#32 (bytesLE 2 h)).truncate 16 = h := by
  refine BitVec.eq_of_getLsbD_eq fun i hi => ?_
  rw [BitVec.getLsbD_setWidth, getLsbD_placeBytes_two h i (by omega)]
  simp [hi]

/-! ### The symbols of bytes -/

theorem exec_decodeSym_of_inData {s : State} (hs : s.st.inData = true) (x : Sym) :
    exec (decodeSym x) s = .next (dataSymbol (dec5 s.cfg x) s) := by
  rw [exec_decodeSym, symbolMeaning_of_inData hs]

theorem getLsbD_zero_of_even {u : BitVec 3} {k : Nat} (h : u.toNat = 2 * k % 8) :
    u.getLsbD 0 = false := by
  rw [BitVec.getLsbD, h, Nat.testBit_zero]
  simp only [decide_eq_false_iff_not]
  omega

theorem toNat_add_two {u : BitVec 3} {k : Nat} (h : u.toNat = 2 * k % 8) :
    (u + 1#3 + 1#3).toNat = 2 * (k + 1) % 8 := by
  simp only [BitVec.toNat_add, h, BitVec.toNat_ofNat]
  omega

/-- R153: the two symbols of byte `k` of a unit put it in its place. -/
theorem dataSymbol_byte {s : State} (x : Byte) {k : Nat} (hk : k < 4)
    (hsym : s.unitSym.toNat = 2 * k % 8) :
    let u := dataSymbol ((x.extractLsb' 4 4).zeroExtend 8) (dataSymbol ((x.extractLsb' 0 4).zeroExtend 8) s)
    u.acc = s.acc ||| bytePlace x k ∧ u.unitSym.toNat = 2 * (k + 1) % 8 ∧ u.st = s.st := by
  have heven := getLsbD_zero_of_even hsym
  have hodd : (s.unitSym + 1#3).getLsbD 0 = true := by
    rw [Timing.getLsbD_zero_add_one, heven]
    rfl
  have hplace : (s.unitSym + 1#3).toNat / 2 = k := by
    simp only [BitVec.toNat_add, hsym, BitVec.toNat_ofNat]
    omega
  refine ⟨?_, ?_, ?_⟩
  · rw [dataSymbol_acc, dataSymbol_unitSym, dataSymbol_acc, dataSymbol_nibLo, heven, hodd, hplace]
    simp only [if_true, Bool.false_eq_true, if_false, byteOf_nibbles]
  · rw [dataSymbol_unitSym, dataSymbol_unitSym, toNat_add_two hsym]
  · rw [dataSymbol_st, dataSymbol_st]

/-- The symbols of the bytes `l`, from byte `k` of a unit, fed to `exec` without the unit's work. -/
theorem foldl_exec_byteSymbols (l : List Byte) {s : State} {k : Nat} (hs : s.st.inData = true)
    (hk : k + l.length ≤ 4) (hsym : s.unitSym.toNat = 2 * k % 8) :
    ∃ t, (l.flatMap byteSymbols).foldl (fun r x => andThen r (exec (decodeSym x))) (.next s) = .next t ∧
      t.acc = placeBytes k s.acc l ∧ t.unitSym.toNat = 2 * (k + l.length) % 8 ∧ t.st = s.st := by
  induction l generalizing s k with
  | nil => exact ⟨s, rfl, rfl, hsym, rfl⟩
  | cons x l ih =>
    rw [List.length_cons] at hk
    obtain ⟨hacc, hsym', hst⟩ := dataSymbol_byte (s := s) x (by omega) hsym
    obtain ⟨t, ht, hacc', hend, hst'⟩ := ih (k := k + 1) (hst ▸ hs) (by omega) hsym'
    refine ⟨t, ?_, ?_, ?_, hst'.trans hst⟩
    · rw [← ht, List.flatMap_cons, List.foldl_append, byteSymbols]
      simp only [List.foldl_cons, List.foldl_nil, andThen_next]
      rw [exec_decodeSym_of_inData hs, andThen_next,
        exec_decodeSym_of_inData (by rw [dataSymbol_st]; exact hs), dec5_enc4, dec5_enc4]
    · rw [hacc', hacc, placeBytes]
    · rw [hend, List.length_cons]
      congr 2
      omega

/-- Settles O18: the bytes placed are the value's. -/
theorem dataSymbolsAssembleLittleEndian : Obligations.DataSymbolsAssembleLittleEndian := by
  intro v s hs hsym hacc put
  have h0 : s.unitSym.toNat = 2 * 0 % 8 := by rw [hsym]; rfl
  obtain ⟨t, ht, hacc2, hend2, -⟩ :=
    foldl_exec_byteSymbols (bytesLE 2 v) (k := 0) hs (by simp [bytesLE]) h0
  obtain ⟨u, hu, hacc4, hend4, hst⟩ :=
    foldl_exec_byteSymbols (bytesLE 4 v) (k := 0) hs (by simp [bytesLE]) h0
  refine ⟨⟨t, ht, ?_, ?_⟩, u, hu, ?_, ?_, hst⟩
  · rw [hacc2, hacc, placeBytes_two_word]
  · exact BitVec.eq_of_toNat_eq (hend2.trans (by simp [bytesLE]))
  · rw [hacc4, hacc, placeBytes_four]
  · exact BitVec.eq_of_toNat_eq (hend4.trans (by simp [bytesLE]))

end Sys2Proof.Assembly
end


section
/-! A well-formed packet, symbol by symbol (R212): the ordered set, the Header, the objects, the trailer
and the EOP are fed one after another, each from what the one before it leaves. -/

namespace Sys2Proof.WellFormedPacket

open Sys2Proof Sys2Proof.Machine Sys2Proof.Rules Sys2Proof.Reports Sys2Proof.Instructions
open Sys2Proof.StopRequest Sys2Proof.Encoding Sys2Proof.Assembly Sys2Proof.FrameSync Sys2Proof.CrcLaws

/-! ### Symbols in sequence -/

/-- Whatever their ranges, the symbols `xs` fed to `s` lead to a state with `P`. -/
def Feeds (xs : List Sym) (s : State) (P : State → Prop) : Prop :=
  ∀ ys : List TimedSym, ys.map TimedSym.x = xs → ∃ t, feedSymbols ys s = .next t ∧ P t

theorem feeds_nil {s : State} {P : State → Prop} (h : P s) : Feeds [] s P := by
  intro ys hys
  rw [List.map_eq_nil_iff.1 hys]
  exact ⟨s, rfl, h⟩

theorem feeds_cons {x : Sym} {xs : List Sym} {s : State} {P : State → Prop}
    (h : ∀ y : TimedSym, y.x = x → ∃ u, feedSymbol y s = .next u ∧ Feeds xs u P) :
    Feeds (x :: xs) s P := by
  intro ys hys
  obtain ⟨y, zs, rfl, hy, hzs⟩ := List.map_eq_cons_iff.1 hys
  obtain ⟨u, hu, hfeeds⟩ := h y hy
  obtain ⟨t, ht, hP⟩ := hfeeds zs hzs
  exact ⟨t, by rw [feedSymbols, hu, andThen_next, ht], hP⟩

theorem feeds_append {xs zs : List Sym} {s : State} {P Q : State → Prop} (h : Feeds xs s P)
    (hnext : ∀ t, P t → Feeds zs t Q) : Feeds (xs ++ zs) s Q := by
  induction xs generalizing s with
  | nil =>
    obtain ⟨t, ht, hP⟩ := h [] rfl
    cases ht
    exact hnext s hP
  | cons x xs ih =>
    refine feeds_cons fun y hy => ?_
    have hhead : ∃ u, feedSymbol y s = .next u := by
      obtain ⟨t, ht, -⟩ := h (y :: xs.map fun x => ⟨x, 0#64, 0#64⟩) (by simp [hy, Function.comp_def])
      rw [feedSymbols, andThen_eq_next_iff] at ht
      obtain ⟨u, hu, -⟩ := ht
      exact ⟨u, hu⟩
    obtain ⟨u, hu⟩ := hhead
    refine ⟨u, hu, ih fun ys hys => ?_⟩
    obtain ⟨t, ht, hP⟩ := h (y :: ys) (by simp [hy, hys])
    rw [feedSymbols, hu, andThen_next] at ht
    exact ⟨t, ht, hP⟩

/-- The state a symbol is run in once its bits have been received. -/
def received (y : TimedSym) (s : State) : State :=
  { s with symSr := y.x, symCnt := 0#3, symStart := y.ts, cur := y.te }

theorem feedSymbol_eq (y : TimedSym) (s : State) : feedSymbol y s = runSymbol (received y s) := rfl

/-! ### The bytes of a unit -/

/-- The registers of the message, the Frames and the events are the same in both states. -/
structure SameMessage (s t : State) : Prop where
  st : t.st = s.st
  cfg : t.cfg = s.cfg
  crc : t.crc = s.crc
  hdr : t.hdr = s.hdr
  sopType : t.sopType = s.sopType
  remaining : t.remaining = s.remaining
  objIndex : t.objIndex = s.objIndex
  pdoList : t.pdoList = s.pdoList
  pdoCount : t.pdoCount = s.pdoCount
  frames : t.frames = s.frames
  ev : t.ev = s.ev

theorem SameMessage.trans {s t u : State} (h : SameMessage s t) (g : SameMessage t u) :
    SameMessage s u :=
  ⟨g.1.trans h.1, g.2.trans h.2, g.3.trans h.3, g.4.trans h.4, g.5.trans h.5, g.6.trans h.6,
    g.7.trans h.7, g.8.trans h.8, g.9.trans h.9, g.10.trans h.10, g.11.trans h.11⟩

/-- Byte Frames are off and the sentinel is the spec's, so a data symbol reports nothing. -/
structure Silent (c : Cfg) : Prop where
  invalidNibble : c.invalidNibble = 0xFF#8
  emitByteFrames : c.emitByteFrames = false

/-- R151: no nibble reads as the sentinel. -/
theorem zeroExtend_nibble_ne (n : Nibble) : ((n.zeroExtend 8 : Byte) == 0xFF#8) = false := by
  revert n; decide

theorem sameMessage_dataSymbol {s : State} (hc : Silent s.cfg) (n : Nibble) :
    SameMessage s (dataSymbol (n.zeroExtend 8) s) where
  st := dataSymbol_st _ _
  cfg := dataSymbol_cfg _ _
  crc := dataSymbol_crc _ _
  hdr := dataSymbol_hdr _ _
  sopType := dataSymbol_sopType _ _
  remaining := dataSymbol_remaining _ _
  objIndex := dataSymbol_objIndex _ _
  pdoList := dataSymbol_pdoList _ _
  pdoCount := dataSymbol_pdoCount _ _
  frames := by
    rw [dataSymbol_frames, byteFrames, hc.emitByteFrames, Bool.and_false]
    exact List.append_nil _
  ev := by
    rw [dataSymbol_ev, hc.invalidNibble, zeroExtend_nibble_ne]
    rfl

theorem lastOfUnit_eq {s : State} {k n : Nat} (hunit : unitSyms s.st = some n)
    (hsym : s.unitSym.toNat = k) : lastOfUnit s = decide (n = k + 1) := by
  rw [lastOfUnit, hunit, hsym, Bool.eq_iff_iff]
  simp

/-- R153, R154: the data symbol of the nibble `n`, and its unit where it is the last. -/
theorem feedSymbol_data {s : State} (hs : s.st.inData = true) (hc : Silent s.cfg) {y : TimedSym}
    {n : Nibble} (hy : y.x = enc4 n) :
    ∃ u, feedSymbol y s = (if lastOfUnit s then runUnit u else .next u) ∧ SameMessage s u ∧
      u.unitSym = s.unitSym + 1#3 ∧
      (s.unitSym.getLsbD 0 = false → u.acc = s.acc ∧ u.nibLo = n.zeroExtend 8) ∧
      (s.unitSym.getLsbD 0 = true →
        u.acc = s.acc ||| bytePlace (byteOf s.nibLo (n.zeroExtend 8)) (s.unitSym.toNat / 2)) := by
  have hdec : dec5 (received y s).cfg (received y s).symSr = n.zeroExtend 8 := by
    rw [show (received y s).symSr = enc4 n from hy, dec5_enc4]
  have hafter : afterData (received y s) = dataSymbol (n.zeroExtend 8) (received y s) :=
    congrArg (dataSymbol · (received y s)) hdec
  have hsame := sameMessage_dataSymbol (s := received y s) hc n
  refine ⟨dataSymbol (n.zeroExtend 8) (received y s), ?_,
    ⟨hsame.1, hsame.2, hsame.3, hsame.4, hsame.5, hsame.6, hsame.7, hsame.8, hsame.9, hsame.10,
      hsame.11⟩, dataSymbol_unitSym _ _, fun heven => ⟨?_, ?_⟩, fun hodd => ?_⟩
  · rw [feedSymbol_eq, runSymbol_of_inData (s := received y s) hs, hafter]
    rfl
  · exact (dataSymbol_acc _ _).trans (if_neg (by simpa [received] using heven))
  · exact (dataSymbol_nibLo _ _).trans (if_neg (by simpa [received] using heven))
  · exact (dataSymbol_acc _ _).trans (if_pos hodd)

/-- R66, R154: the bytes `l`, the last of their unit, are placed one after another; then the unit
runs. -/
theorem feeds_unit {s : State} {k : Nat} {l : List Byte} {P : State → Prop} (hs : s.st.inData = true)
    (hc : Silent s.cfg) (hsym : s.unitSym.toNat = 2 * k)
    (hunit : unitSyms s.st = some (2 * (k + l.length))) (hne : l ≠ [])
    (hrun : ∀ u, SameMessage s u → u.acc = placeBytes k s.acc l → ∃ t, runUnit u = .next t ∧ P t) :
    Feeds (l.flatMap byteSymbols) s P := by
  induction l generalizing s k with
  | nil => exact absurd rfl hne
  | cons x l ih =>
    rw [List.length_cons] at hunit
    have hk : k + (l.length + 1) ≤ 4 := by
      cases hst : s.st <;> simp_all [unitSyms, St.inData] <;> omega
    have heven : s.unitSym.getLsbD 0 = false := getLsbD_zero_of_even (k := k) (by omega)
    rw [List.flatMap_cons, byteSymbols]
    refine feeds_cons fun y1 hy1 => ?_
    obtain ⟨s1, hs1, hsame1, hsym1, hlow, -⟩ := feedSymbol_data hs hc hy1
    obtain ⟨hacc1, hnib1⟩ := hlow heven
    rw [lastOfUnit_eq hunit hsym, decide_eq_false (by omega)] at hs1
    refine ⟨s1, hs1, feeds_cons fun y2 hy2 => ?_⟩
    have hsym1' : s1.unitSym.toNat = 2 * k + 1 := by
      rw [hsym1, BitVec.toNat_add, hsym]
      exact Nat.mod_eq_of_lt (show 2 * k + 1 < 8 by omega)
    have hodd : s1.unitSym.getLsbD 0 = true := by
      rw [hsym1, Timing.getLsbD_zero_add_one, heven]
      rfl
    obtain ⟨s2, hs2, hsame2, hsym2, -, hhigh⟩ :=
      feedSymbol_data (hsame1.st ▸ hs) (hsame1.cfg ▸ hc) hy2
    have hacc2 : s2.acc = s.acc ||| bytePlace x k := by
      rw [hhigh hodd, hacc1, hnib1, byteOf_nibbles, hsym1', show (2 * k + 1) / 2 = k by omega]
    have hsame := hsame1.trans hsame2
    rw [lastOfUnit_eq (hsame1.st ▸ hunit) hsym1'] at hs2
    cases l with
    | nil =>
      rw [decide_eq_true (by simp only [List.length_nil]; omega)] at hs2
      obtain ⟨t, ht, hP⟩ := hrun s2 hsame hacc2
      exact ⟨t, hs2.trans ht, feeds_nil hP⟩
    | cons x' l =>
      rw [decide_eq_false (by simp only [List.length_cons]; omega)] at hs2
      refine ⟨s2, hs2, ih (k := k + 1) (hsame.st ▸ hs) (hsame.cfg ▸ hc) ?_ ?_ (by simp)
        fun u hu hacc => hrun u (hsame.trans hu) (hacc.trans (by rw [hacc2]; rfl))⟩
      · rw [hsym2, BitVec.toNat_add, hsym1']
        simp only [List.length_cons] at hk
        exact Nat.mod_eq_of_lt (show 2 * k + 1 + 1 < 8 by omega)
      · rw [hsame.st, hunit]
        congr 2
        omega

/-! ### The ordered set (R135 to R137) -/

/-- In `AWAIT_SOP` with the first `k` symbols of `rx` stored, and all else as in `s`. -/
structure SopStored (s : State) (rx : Vector Sym 4) (k : Nat) (t : State) : Prop where
  st : t.st = .awaitSop
  unitSym : t.unitSym.toNat = k
  stored : ∀ i (hi : i < 4), i < k → t.sopRx[i] = rx[i]
  cfg : t.cfg = s.cfg
  pdoList : t.pdoList = s.pdoList
  pdoCount : t.pdoCount = s.pdoCount
  frames : t.frames = s.frames
  ev : t.ev = s.ev

/-- R135: the next symbol of the set is stored; after the fourth the set is classified. -/
theorem feedSymbol_sop {s t : State} {rx : Vector Sym 4} {k : Nat} (hk : k < 4)
    (h : SopStored s rx k t) {y : TimedSym} (hy : y.x = rx[k]) :
    ∃ u, SopStored s rx (k + 1) u ∧
      feedSymbol y t = if k = 3 then runUnit u else .next u := by
  have hlt : t.unitSym.toNat < 4 := h.unitSym ▸ hk
  have hstored : SopStored s rx (k + 1) { received y t with
      sopRx := t.sopRx.set t.unitSym.toNat y.x hlt, unitSym := t.unitSym + 1#3 } := by
    refine ⟨h.st, ?_, fun i hi hik => ?_, h.cfg, h.pdoList, h.pdoCount, h.frames, h.ev⟩
    · rw [BitVec.toNat_add, h.unitSym]
      exact Nat.mod_eq_of_lt (show k + 1 < 8 by omega)
    · dsimp only
      rw [Vector.getElem_set, h.unitSym]
      split
      next hki => subst hki; exact hy
      next hki => exact h.stored i hi (by omega)
  refine ⟨_, hstored, ?_⟩
  have hlast : lastOfUnit (received y t) = decide (k = 3) := by
    rw [lastOfUnit_eq (s := received y t) (n := 4) (congrArg unitSyms h.st) h.unitSym, decide_eq_decide]
    omega
  have hexec : exec (decodeSym (received y t).symSr) (received y t) = .next { received y t with
      sopRx := t.sopRx.set t.unitSym.toNat y.x hlt, unitSym := t.unitSym + 1#3 } := by
    rw [exec_decodeSym, symbolMeaning_awaitSop (s := received y t) h.st]
    exact dif_pos hlt
  rw [feedSymbol_eq, runSymbol, hexec, andThen_next, hlast]
  simp only [decide_eq_true_eq]

/-- In `AWAIT_HEADER` after the variant `v` was accepted in `s`. -/
structure SopDone (s : State) (v : Fin 5) (t : State) : Prop where
  st : t.st = .awaitHeader
  unitSym : t.unitSym = 0#3
  acc : t.acc = 0#32
  crc : t.crc = 0#32
  sopType : t.sopType = BitVec.ofNat 3 v
  cfg : t.cfg = s.cfg
  pdoList : t.pdoList = s.pdoList
  pdoCount : t.pdoCount = s.pdoCount
  frames : t.frames.map Frame.content = s.frames.map Frame.content ++ [(.sop, BitVec.ofNat 64 v, 0#64)]
  ev : t.ev = s.ev

theorem zeroExtend_variant (v : Fin 5) :
    ((BitVec.ofNat 3 v).zeroExtend 64 : Field) = BitVec.ofNat 64 v := by
  revert v; decide

theorem toList_sopPattern (v : Fin 5) : (sopPattern v).toList =
    [(sopPattern v)[0], (sopPattern v)[1], (sopPattern v)[2], (sopPattern v)[3]] := by
  revert v; decide

/-- R88, R136, R137: the four symbols of a variant's set open the Header. -/
theorem feeds_sop {s : State} (hst : s.st = .awaitSop) (hsym : s.unitSym = 0#3)
    (h3 : 3 ≤ s.cfg.sopMatchThreshold) (h4 : s.cfg.sopMatchThreshold ≤ 4) (v : Fin 5) :
    Feeds (sopPattern v).toList s (SopDone s v) := by
  have start : SopStored s (sopPattern v) 0 s :=
    ⟨hst, by rw [hsym]; rfl, fun i _ hi => absurd hi (Nat.not_lt_zero i), rfl, rfl, rfl, rfl, rfl⟩
  rw [toList_sopPattern]
  refine feeds_cons fun y0 hy0 => ?_
  obtain ⟨u0, h0, hf0⟩ := feedSymbol_sop (by decide) start hy0
  refine ⟨u0, hf0, feeds_cons fun y1 hy1 => ?_⟩
  obtain ⟨u1, h1, hf1⟩ := feedSymbol_sop (by decide) h0 hy1
  refine ⟨u1, hf1, feeds_cons fun y2 hy2 => ?_⟩
  obtain ⟨u2, h2, hf2⟩ := feedSymbol_sop (by decide) h1 hy2
  refine ⟨u2, hf2, feeds_cons fun y3 hy3 => ?_⟩
  obtain ⟨u3, h3', hf3⟩ := feedSymbol_sop (by decide) h2 hy3
  have hrx : u3.sopRx = sopPattern v := Vector.ext fun i hi => h3'.stored i hi hi
  have hrun : runUnit u3 = .next (sopFound (BitVec.ofNat 3 v) u3) := by
    rw [runUnit_awaitSop u3 h3'.st, hrx, h3'.cfg, sopClassify_sopPattern h3 h4]
  refine ⟨_, hf3.trans hrun, feeds_nil ⟨rfl, rfl, rfl, rfl, rfl, h3'.cfg, h3'.pdoList, h3'.pdoCount, ?_,
    h3'.ev⟩⟩
  rw [sopFound_frames, h3'.frames, List.map_append, zeroExtend_variant]
  rfl

/-! ### The Header and the objects (R195, R197) -/

/-- After the SOP `v`, the Header `h` and the objects `done` of a message received in `s`, with the
objects `todo` to come. -/
structure PayloadDone (s : State) (v : Fin 5) (h : Header) (done todo : List Word) (t : State) : Prop where
  st : t.st = if todo = [] then .awaitCrc else .readPayload
  unitSym : t.unitSym = 0#3
  acc : t.acc = 0#32
  cfg : t.cfg = s.cfg
  hdr : t.hdr = h
  objIndex : t.objIndex = BitVec.ofNat 3 done.length
  remaining : t.remaining = BitVec.ofNat 3 todo.length
  crc : t.crc = crcUpdate s.cfg.crcPoly 0#32 (coveredBytes h done)
  /-- The list is still the one a Request's first object is resolved against. -/
  list : done = [] → kind s.cfg h ≠ .srcCap → t.pdoList = s.pdoList ∧ t.pdoCount = s.pdoCount
  frames : t.frames.map Frame.content = s.frames.map Frame.content ++
    [(.sop, BitVec.ofNat 64 v, 0#64), (.header, h.zeroExtend 64, BitVec.ofNat 64 v)] ++
    done.zipIdx.map fun p => objectContent s h p.1 p.2
  ev : { t.ev with refError := s.ev.refError } = s.ev

theorem ofNat_length_eq_zero_iff {l : List Word} (hl : l.length ≤ 7) :
    BitVec.ofNat 3 l.length = 0#3 ↔ l = [] := by
  rw [BitVec.toNat_eq, BitVec.toNat_ofNat, Nat.mod_eq_of_lt (show l.length < 2 ^ 3 by omega),
    BitVec.toNat_zero, List.length_eq_zero_iff]

/-- R195: the Header's two bytes open the payload, or the trailer where there is none. -/
theorem feeds_header {s t : State} {v : Fin 5} (h : SopDone s v t) (hc : Silent s.cfg) {hdr : Header}
    {ws : List Word} (hlen : ws.length = (ndo hdr).toNat) :
    Feeds ((bytesLE 2 hdr).flatMap byteSymbols) t (PayloadDone s v hdr [] ws) := by
  have hndo : BitVec.ofNat 3 ws.length = ndo hdr := by rw [hlen, BitVec.ofNat_toNat, BitVec.setWidth_eq]
  have hnil : ndo hdr = 0#3 ↔ ws = [] := by
    rw [← hndo]
    exact ofNat_length_eq_zero_iff (by have := (ndo hdr).isLt; omega)
  refine feeds_unit (k := 0) (by rw [h.st]; rfl) (h.cfg ▸ hc) (by rw [h.unitSym]; rfl)
    (by rw [h.st]; rfl) (by simp [bytesLE]) fun u hu hacc => ⟨_, runUnit_awaitHeader u (hu.st.trans h.st), ?_⟩
  rw [hacc, h.acc, truncate_placeBytes_two, headerDone_eq]
  refine ⟨?_, rfl, rfl, hu.cfg.trans h.cfg, rfl, rfl, hndo.symm, ?_, fun _ hk => ⟨?_, ?_⟩, ?_, ?_⟩
  · simp only [hnil]
  · dsimp only
    rw [hu.cfg, hu.crc, h.cfg, h.crc, coveredBytes]
    simp
  · exact hu.pdoList.trans h.pdoList
  · have hkind : (kind u.cfg hdr == .srcCap) = false := by
      rw [hu.cfg, h.cfg]
      simpa using hk
    dsimp only
    rw [hkind, Bool.false_and]
    exact hu.pdoCount.trans h.pdoCount
  · dsimp only
    rw [List.map_append, hu.frames, h.frames, hu.sopType, h.sopType, zeroExtend_variant]
    simp [Frame.content]
  · dsimp only
    rw [hu.ev, h.ev]

/-- What an object leaves of the registers, whatever its class (R197). -/
theorem objectDone_eq_record {k : Kind} {s t : State} (h : objectDone (objectPart k) s = .next t) :
    t = { s with
      crc := crcUpdate s.cfg.crcPoly s.crc (bytesLE 4 s.acc)
      objIndex := s.objIndex + 1#3
      remaining := s.remaining - 1#3
      unitStart := s.cur
      unitSym := 0#3
      acc := 0#32
      st := if s.remaining - 1#3 = 0#3 then .awaitCrc else s.st
      frames := t.frames
      pdoList := t.pdoList
      pdoCount := t.pdoCount
      ev := t.ev
      trace := t.trace } := by
  obtain ⟨u, hu, rfl⟩ := (objectDone_eq_next _ _ _).1 h
  obtain ⟨fs, -, hu⟩ := objectPart_eq_next _ _ _ _ _ hu
  rw [nextObject_eq, hu]

/-- R199: only the first object of a Request has a REQUEST_DO Frame. -/
theorem request_of_objectType {s : State} (h : objectType s = .requestDo) :
    kind s.cfg s.hdr = .request ∧ s.objIndex = 0#3 := by
  rw [objectType] at h
  cases hk : kind s.cfg s.hdr <;> simp only [hk] at h
  case request =>
    split at h
    next h0 => exact ⟨rfl, h0⟩
    next => cases h
  case vdm => split at h <;> cases h
  all_goals cases h

/-- R198 to R202: the Frame an object reports is the one its class and its place give. -/
theorem objectReport_content {s u t : State} {h : Header} {w : Word} {k : Nat} (hrep : ObjectReport u t)
    (hcfg : u.cfg = s.cfg) (hhdr : u.hdr = h) (hacc : u.acc = w) (hk : u.objIndex = 0#3 ↔ k = 0)
    (hctl : kind s.cfg h ≠ .control)
    (hlist : k = 0 → kind s.cfg h ≠ .srcCap → u.pdoList = s.pdoList ∧ u.pdoCount = s.pdoCount) :
    t.frames.map Frame.content = u.frames.map Frame.content ++ [objectContent s h w k] ∧
      { t.ev with refError := s.ev.refError } = { u.ev with refError := s.ev.refError } := by
  subst hhdr hacc
  have hat : ∀ {y}, objectType u = .requestDo → pdoAt (objPos u.cfg u.acc) u = y →
      kind s.cfg u.hdr = .request ∧ k = 0 ∧ pdoAt (objPos s.cfg u.acc) s = y := by
    intro y hy hp
    have hreq : kind s.cfg u.hdr = .request ∧ u.objIndex = 0#3 := hcfg ▸ request_of_objectType hy
    obtain ⟨hl, hcnt⟩ := hlist (hk.1 hreq.2) (by simp [hreq.1])
    refine ⟨hreq.1, hk.1 hreq.2, ?_⟩
    rw [← hp, pdoAt, pdoAt, hcfg, hl, hcnt]
  have append : ∀ y d, t.frames = u.frames ++ [objectFrame y d u] →
      (y, (u.acc.zeroExtend 64 : Field), d) = objectContent s u.hdr u.acc k →
      t.frames.map Frame.content =
        u.frames.map Frame.content ++ [objectContent s u.hdr u.acc k] := by
    intro y d hf hcontent
    rw [hf, List.map_append, ← hcontent]
    rfl
  cases hrep with
  | silent hkind hf he => exact absurd (hcfg ▸ hkind) hctl
  | plain hkind hy hf he =>
    refine ⟨append _ _ hf ?_, by rw [he]⟩
    rw [objectType, hcfg] at hy ⊢
    rw [objectContent]
    cases hkd : kind s.cfg u.hdr <;> simp only [hkd] at hy ⊢
    · by_cases h0 : u.objIndex = 0#3
      · simp [h0] at hy
      · rw [if_neg h0, if_neg (mt hk.2 h0)]
    · by_cases h0 : u.objIndex = 0#3
      · rw [if_pos h0, if_pos (hk.1 h0)]
      · rw [if_neg h0, if_neg (mt hk.2 h0)]
  | resolved p hkind hy hp hf he =>
    obtain ⟨hreq, h0, hp'⟩ := hat hy hp
    refine ⟨append _ _ hf ?_, by rw [he]⟩
    simp only [objectContent, hreq, if_pos h0, hp', Option.map_some, Option.getD_some]
  | unresolved hkind hy hp hf he =>
    obtain ⟨hreq, h0, hp'⟩ := hat hy hp
    refine ⟨append _ _ hf ?_, by rw [he]; rfl⟩
    simp only [objectContent, hreq, if_pos h0, hp', Option.map_none, Option.getD_none]

theorem coveredBytes_append (h : Header) (l : List Word) (w : Word) :
    coveredBytes h (l ++ [w]) = coveredBytes h l ++ bytesLE 4 w := by
  simp [coveredBytes]

/-- R196: only a Header without objects is of the control class. -/
theorem kind_eq_control_iff (c : Cfg) (h : Header) : kind c h = .control ↔ ndo h = 0#3 := by
  unfold kind
  split_ifs with h0 <;> simp_all

/-- R197: the four bytes of the next object. -/
theorem feeds_object {s t : State} {v : Fin 5} {h : Header} {done todo : List Word} {w : Word}
    (hp : PayloadDone s v h done (w :: todo) t) (hc : Silent s.cfg)
    (hlen : done.length + (todo.length + 1) = (ndo h).toNat) :
    Feeds ((bytesLE 4 w).flatMap byteSymbols) t (PayloadDone s v h (done ++ [w]) todo) := by
  have hndo := (ndo h).isLt
  have hst : t.st = .readPayload := by rw [hp.st, if_neg (List.cons_ne_nil _ _)]
  have hctl : kind s.cfg h ≠ .control := fun hk => by
    rw [(kind_eq_control_iff _ _).1 hk] at hlen
    exact absurd hlen (Nat.succ_ne_zero _)
  refine feeds_unit (k := 0) (by rw [hst]; rfl) (hp.cfg ▸ hc) (by rw [hp.unitSym]; rfl)
    (by rw [hst]; rfl) (by simp [bytesLE]) fun u hu hacc => ?_
  rw [hp.acc, placeBytes_four] at hacc
  have hust := hu.st.trans hst
  have hidx : u.objIndex.toNat = done.length := by
    rw [hu.objIndex, hp.objIndex, BitVec.toNat_ofNat]
    exact Nat.mod_eq_of_lt (by omega)
  obtain ⟨p, hpart⟩ := objectPart_isNext (kind u.cfg u.hdr) u.acc u.unitStart (PacketFsm.coverObject u)
    (show u.objIndex.toNat < 7 by omega)
  have hdone : objectDone (objectPart (kind u.cfg u.hdr)) u = .next (nextObject p) :=
    (objectDone_eq_next _ _ _).2 ⟨p, hpart, rfl⟩
  refine ⟨nextObject p, (runUnit_readPayload u hust).trans hdone, ?_⟩
  have hfirst : u.objIndex = 0#3 ↔ done.length = 0 := by
    rw [BitVec.toNat_eq, hidx]
    rfl
  obtain ⟨hframes, hev⟩ := objectReport_content (objectReport_of_objectDone hdone)
    (hu.cfg.trans hp.cfg) (hu.hdr.trans hp.hdr) hacc hfirst hctl fun h0 hk =>
      have hl := hp.list (List.length_eq_zero_iff.1 h0) hk
      ⟨hu.pdoList.trans hl.1, hu.pdoCount.trans hl.2⟩
  have hrem : u.remaining - 1#3 = BitVec.ofNat 3 todo.length := by
    rw [hu.remaining, hp.remaining, List.length_cons, BitVec.ofNat_add, BitVec.add_sub_cancel]
  have hrecord := objectDone_eq_record hdone
  generalize nextObject p = t' at hrecord hframes hev
  rw [hrecord]
  refine ⟨?_, rfl, rfl, hu.cfg.trans hp.cfg, hu.hdr.trans hp.hdr, ?_, hrem, ?_, fun h0 => by simp at h0,
    ?_, ?_⟩
  · simp only [hrem, ofNat_length_eq_zero_iff (show todo.length ≤ 7 by omega), hust]
  · dsimp only
    rw [hu.objIndex, hp.objIndex, List.length_append, List.length_singleton, BitVec.ofNat_add]
  · dsimp only
    rw [hacc, hu.cfg, hp.cfg, hu.crc, hp.crc, crcUpdate_append, coveredBytes_append]
  · dsimp only
    rw [hframes, hu.frames, hp.frames, List.zipIdx_append, List.map_append]
    simp
  · dsimp only
    rw [hev, hu.ev, hp.ev]

/-- All the objects of a message, one after another. -/
theorem feeds_objects {s : State} {v : Fin 5} {h : Header} (hc : Silent s.cfg) (todo : List Word)
    {done : List Word} {t : State} (hp : PayloadDone s v h done todo t)
    (hlen : done.length + todo.length = (ndo h).toNat) :
    Feeds ((todo.flatMap fun w => bytesLE 4 w).flatMap byteSymbols) t
      (PayloadDone s v h (done ++ todo) []) := by
  induction todo generalizing done t with
  | nil => exact feeds_nil ((List.append_nil done).symm ▸ hp)
  | cons w todo ih =>
    rw [List.flatMap_cons, List.flatMap_append]
    refine feeds_append (feeds_object hp hc hlen) fun u hu => ?_
    have hrest := ih hu (by
      rw [List.length_append, List.length_singleton, ← hlen, List.length_cons]
      omega)
    rwa [List.append_assoc, List.singleton_append] at hrest

/-! ### The trailer and the EOP (R205, R206) -/

/-- R205: the trailer with the right value is reported beside it, and no event is signalled. -/
theorem feeds_trailer {s t : State} {v : Fin 5} {h : Header} {ws : List Word}
    (hp : PayloadDone s v h ws [] t) (hc : Silent s.cfg) :
    Feeds ((bytesLE 4 (crcUpdate s.cfg.crcPoly 0#32 (coveredBytes h ws))).flatMap byteSymbols) t
      fun u => u.st = .awaitEop ∧
        u.frames.map Frame.content = t.frames.map Frame.content ++
          [(.crc32, (crcUpdate s.cfg.crcPoly 0#32 (coveredBytes h ws)).zeroExtend 64,
            (crcUpdate s.cfg.crcPoly 0#32 (coveredBytes h ws)).zeroExtend 64)] ∧
        u.ev = t.ev := by
  have hst : t.st = .awaitCrc := hp.st
  refine feeds_unit (k := 0) (by rw [hst]; rfl) (hp.cfg ▸ hc) (by rw [hp.unitSym]; rfl)
    (by rw [hst]; rfl) (by simp [bytesLE]) fun u hu hacc => ⟨_, runUnit_awaitCrc u (hu.st.trans hst), ?_⟩
  rw [hp.acc, placeBytes_four] at hacc
  have hcrc : u.crc = crcUpdate s.cfg.crcPoly 0#32 (coveredBytes h ws) := hu.crc.trans hp.crc
  refine ⟨by rw [crcDone_eq], ?_, ?_⟩
  · rw [crcDone_frames, List.map_append, hu.frames, hacc, hcrc]
    rfl
  · rw [crcDone_ev, hacc, hcrc, bne_self_eq_false]
    exact hu.ev

/-- R206: the EOP K-code ends the packet. -/
theorem feeds_eop {s : State} (hst : s.st = .awaitEop) :
    Feeds [0x0D#5] s fun t => t.st = .done ∧
      t.frames.map Frame.content = s.frames.map Frame.content ++ [(.eop, 1#64, 0#64)] ∧ t.ev = s.ev := by
  refine feeds_cons fun y hy => ?_
  have hexec : exec (decodeSym (received y s).symSr) (received y s) =
      .next (eopSymbol kEop (received y s)) := by
    rw [exec_decodeSym, PacketFsm.symbolMeaning_awaitEop _ (s := received y s) hst]
    exact congrArg (fun x => Host.Outcome.next (eopSymbol x (received y s))) hy
  have hlast : lastOfUnit (received y s) = false := by
    simp [lastOfUnit, unitSyms, received, hst]
  refine ⟨eopSymbol kEop (received y s), ?_, feeds_nil ?_⟩
  · rw [feedSymbol_eq, runSymbol, hexec, andThen_next, hlast]
    rfl
  · rw [PacketFsm.eopSymbol_kEop]
    exact ⟨rfl, by simp [received, Frame.content], rfl⟩

/-- Settles O57: the parts of the packet in sequence. -/
theorem wellFormedPacketIsDecoded : Obligations.WellFormedPacketIsDecoded := by
  intro s v h ws ys hst hsym hacc hinv hbyte h3 h4 hlen hys
  have hc : Silent s.cfg := ⟨hinv, hbyte⟩
  have hpacket : Feeds (packetSymbols s.cfg.crcPoly v h ws) s fun t => t.st = .done ∧
      t.frames.map Frame.content = s.frames.map Frame.content ++
        [(.sop, BitVec.ofNat 64 v, 0#64), (.header, h.zeroExtend 64, BitVec.ofNat 64 v)] ++
        (ws.zipIdx.map fun p => objectContent s h p.1 p.2) ++
        [(.crc32, (crcUpdate s.cfg.crcPoly 0#32 (coveredBytes h ws)).zeroExtend 64,
            (crcUpdate s.cfg.crcPoly 0#32 (coveredBytes h ws)).zeroExtend 64),
         (.eop, 1#64, 0#64)] ∧
      { t.ev with refError := s.ev.refError } = s.ev := by
    have hsymbols : packetSymbols s.cfg.crcPoly v h ws = (sopPattern v).toList ++
        ((bytesLE 2 h).flatMap byteSymbols ++ ((ws.flatMap fun w => bytesLE 4 w).flatMap byteSymbols ++
          ((bytesLE 4 (crcUpdate s.cfg.crcPoly 0#32 (coveredBytes h ws))).flatMap byteSymbols ++
            [0x0D#5]))) := by
      simp only [packetSymbols, coveredBytes, List.flatMap_append, List.append_assoc]
    rw [hsymbols]
    refine feeds_append (feeds_sop hst hsym h3 h4 v) fun t1 h1 => ?_
    refine feeds_append (feeds_header h1 hc hlen) fun t2 h2 => ?_
    refine feeds_append (feeds_objects hc ws h2 ((Nat.zero_add _).trans hlen)) fun t3 h3 => ?_
    refine feeds_append (feeds_trailer h3 hc) fun t4 ⟨hst4, hframes4, hev4⟩ zs hzs => ?_
    obtain ⟨t, ht, hdone, hframes, hev⟩ := feeds_eop hst4 zs hzs
    refine ⟨t, ht, hdone, ?_, ?_⟩
    · rw [hframes, hframes4, h3.frames, List.append_assoc _ [_] [_]]
      rfl
    · rw [hev, hev4]
      exact h3.ev
  exact hpacket ys hys

end Sys2Proof.WellFormedPacket
end


section
/-! The bounded latency of a packet (R215): every bit takes at most two edges, and every bit recovered
brings the packet nearer to its end. -/

namespace Sys2Proof.Latency

open Sys2Proof Sys2Proof.Machine Sys2Proof.Rules Sys2Proof.Control Sys2Proof.Runs

/-! ### The bits a packet can still take -/

/-- R31, R45(d): a packet state has at least the last bit of the symbol in hand to come. -/
theorem bitsLeft_pos {s : State} (h : ControlInv s) (hs : s.st.inPacket = true) : 0 < bitsLeft s := by
  have hcnt := h.symCnt_le
  cases hst : s.st <;> simp_all only [bitsLeft, St.inPacket, Bool.false_eq_true] <;> omega

/-- R100: the longest packet has 365 bits after its preamble. -/
theorem bitsLeft_le {s : State} : bitsLeft s ≤ 365 := by
  have hrem := s.remaining.isLt
  unfold bitsLeft
  split <;> omega

theorem bitsLeft_shiftBit {s : State} (h : ControlInv s) (hs : s.st.inPacket = true)
    (hn : s.symCnt.toNat < 4) (b : Bool) (t0 : Sample) :
    bitsLeft (shiftBit b t0 s) + 1 ≤ bitsLeft s := by
  have hcnt : (s.symCnt + 1#3).toNat = s.symCnt.toNat + 1 := by
    rw [BitVec.toNat_add]
    exact Nat.mod_eq_of_lt (show s.symCnt.toNat + 1 < 8 by omega)
  have hfields : (shiftBit b t0 s).st = s.st ∧ (shiftBit b t0 s).unitSym = s.unitSym ∧
      (shiftBit b t0 s).remaining = s.remaining := by
    unfold shiftBit
    split <;> exact ⟨rfl, rfl, rfl⟩
  obtain ⟨hst', hunit, hrem⟩ := hfields
  have hsop := h.unitSym_le
  have hwidth := s.unitSym.isLt
  rw [bitsLeft, bitsLeft, hst', hunit, hrem, Memory.shiftBit_symCnt, hcnt]
  cases hst : s.st <;> simp only [hst, St.inPacket, Bool.false_eq_true] at hs hsop ⊢
  case awaitSop => have := hsop (.inl trivial); omega
  case awaitHeader => have := hsop (.inr trivial); omega
  all_goals omega

/-- R204: an object counted leaves the objects to come, or the trailer. -/
theorem bitsLeft_nextObject {s : State} (hst : s.st = .readPayload) (hcnt : s.symCnt = 0#3)
    (hpos : 1 ≤ s.remaining.toNat) :
    bitsLeft (nextObject s) ≤ 40 * (s.remaining.toNat - 1) + 40 + 5 := by
  have hrem : (s.remaining - 1#3).toNat = s.remaining.toNat - 1 :=
    BitVec.toNat_sub_of_le (by simpa [BitVec.le_def] using hpos)
  rw [nextObject_eq]
  by_cases hlast : s.remaining - 1#3 = 0#3
  · simp only [bitsLeft, if_pos hlast, hcnt, BitVec.toNat_zero]
    omega
  · have hne : (s.remaining - 1#3).toNat ≠ 0 := fun h0 => hlast (BitVec.eq_of_toNat_eq h0)
    simp only [bitsLeft, if_neg hlast, hst, hcnt, hrem, BitVec.toNat_zero]
    omega

/-- R100: a Header read leaves at most 7 objects and the trailer. -/
theorem bitsLeft_headerDone {s : State} (hcnt : s.symCnt = 0#3) (k : Bool) (h : Header) :
    bitsLeft (headerDone k h s) ≤ 40 * 7 + 40 + 5 := by
  have hndo := (ndo h).isLt
  rw [headerDone_eq]
  by_cases h0 : ndo h = 0#3
  · simp only [bitsLeft, if_pos h0, hcnt, BitVec.toNat_zero]
    omega
  · simp only [bitsLeft, if_neg h0, hcnt, BitVec.toNat_zero]
    omega

/-- R153: a data symbol that is not the last of its unit takes its 5 bits of it. -/
theorem bitsLeft_afterData {s : State} (hs : s.st.inData = true) (hl : lastOfUnit s = false)
    (h3 : s.st = .awaitHeader → s.unitSym.toNat ≤ 3) (hcnt : s.symCnt = 0#3) :
    bitsLeft (afterData s) + 5 ≤ bitsLeft s := by
  have hadd : (s.unitSym + 1#3).toNat = (s.unitSym.toNat + 1) % 8 := BitVec.toNat_add ..
  have hwidth := s.unitSym.isLt
  simp only [bitsLeft, dataSymbol_st, dataSymbol_unitSym, dataSymbol_symCnt, dataSymbol_remaining, hadd,
    hcnt, BitVec.toNat_zero]
  rw [lastOfUnit] at hl
  cases hst : s.st <;> simp only [hst, St.inData, Bool.false_eq_true] at hs h3 ⊢ <;>
    simp only [hst, unitSyms, beq_eq_false_iff_ne, ne_eq, Option.some.injEq] at hl
  case awaitHeader => have := h3 trivial; omega
  all_goals omega

/-- A completed symbol of a packet takes 5 of its bits, or ends it. -/
theorem bitsLeft_runSymbol {s t : State} (h : ControlInv s) (hs : s.st.inPacket = true)
    (hcnt : s.symCnt = 0#3) (ht : runSymbol s = .next t) :
    t.st.inPacket = false ∨ bitsLeft t + 5 ≤ bitsLeft s := by
  cases runSymbol_cases s t ht with
  | idle hi ht => simp [hs] at hi
  | sopStored hst hk ht =>
    right
    have hadd : (s.unitSym + 1#3).toNat = s.unitSym.toNat + 1 := by
      rw [BitVec.toNat_add]
      exact Nat.mod_eq_of_lt (show s.unitSym.toNat + 1 < 8 by omega)
    subst ht
    simp only [bitsLeft, hst, hcnt, hadd, BitVec.toNat_zero]
    omega
  | sopAccepted v hst hk hv ht =>
    right
    subst ht
    rw [sopFound_eq]
    simp [bitsLeft, hst, hcnt, hk]
  | sopRejected hst hk hv ht =>
    left
    subst ht
    rw [sopError_eq_enterSearch, enterSearch_st]
    cases searchState_cases s.stopReq <;> simp_all [St.inPacket]
  | data hst hl ht =>
    exact .inr (ht ▸ bitsLeft_afterData hst hl (fun hh => h.unitSym_le (.inr hh)) hcnt)
  | header hst hk ht =>
    right
    have hle := bitsLeft_headerDone (s := afterData s) ((dataSymbol_symCnt _ _).trans hcnt)
      (kind s.cfg ((afterData s).acc.truncate 16) == .srcCap) ((afterData s).acc.truncate 16)
    have hleft : bitsLeft s = 5 + (40 * 7 + 40 + 5) := by simp [bitsLeft, hst, hk, hcnt]
    rw [ht, hleft]
    omega
  | object hst hk ht =>
    right
    obtain ⟨u, hu, rfl⟩ := (objectDone_eq_next _ _ _).1 ht
    obtain ⟨fs, -, hu⟩ := objectPart_eq_next _ _ _ _ _ hu
    have hrem : u.remaining = s.remaining := by rw [hu, dataSymbol_remaining]
    have hle := bitsLeft_nextObject (s := u) (by rw [hu, dataSymbol_st, hst])
      (by rw [hu, dataSymbol_symCnt, hcnt]) (hrem ▸ h.remaining_pos hst)
    have hleft : bitsLeft s = 5 + (40 * (s.remaining.toNat - 1) + 40 + 5) := by
      simp [bitsLeft, hst, hk, hcnt]
    rw [hrem] at hle
    omega
  | trailer hst hk ht =>
    right
    subst ht
    rw [crcDone_eq]
    simp [bitsLeft, hst, hk, hcnt]
  | eop hst ht =>
    left
    obtain ⟨-, heop⟩ | ⟨-, heop⟩ := eopSymbol_cases s.symSr s <;> rw [ht, heop]
    · rfl
    · rw [enterSearch_st]
      cases searchState_cases s.stopReq <;> simp_all [St.inPacket]

/-- The fifth bit of a symbol is counted with the four before it. -/
theorem bitsLeft_symbolReady {s : State} (hn : s.symCnt = 4#3) (e : Edge) (rest : List Edge) (b : Bool)
    (t0 : Sample) : bitsLeft (symbolReady s e rest b t0) ≤ bitsLeft s + 4 := by
  cases hst : s.st <;> simp only [bitsLeft, symbolReady, afterBit, hst, hn, BitVec.toNat_ofNat] <;> omega

/-! ### The edges of a packet -/

/-- The edges a packet can still take: two for each bit, less the one that has opened a one. -/
def edgesLeft (s : State) : Nat :=
  match s.bph with
  | .boundary => 2 * bitsLeft s
  | .mid => 2 * bitsLeft s - 1

theorem edgesLeft_le (s : State) : edgesLeft s ≤ 2 * bitsLeft s := by
  unfold edgesLeft
  split <;> omega

/-- A bit closed leaves at least one edge less than before its last. -/
theorem edgesLeft_of_bit {s t : State} (h : bitsLeft t + 1 ≤ bitsLeft s) :
    edgesLeft t + 1 ≤ edgesLeft s := by
  have ht := edgesLeft_le t
  rw [edgesLeft.eq_def s]
  split <;> omega

/-- R215: an edge taken in a packet ends it or is one of the edges left. -/
theorem step_of_packet {s : State} (h : ControlInv s) (hs : s.st.inPacket = true) {e : Edge}
    {rest : List Edge} (he : edgeAt s e rest) :
    ∃ t, step s = .next t ∧ t.input = rest ∧ t.resetReq = none ∧
      (t.st.inPacket = false ∨ edgesLeft t + 1 ≤ edgesLeft s) := by
  obtain ⟨t, ht⟩ := stepNeverStopsInARun s h fun c hc => by simp [he.1] at hc
  have hbits := bitsLeft_pos h hs
  refine ⟨t, ht, ?_⟩
  have hedge : ∀ {e' rest'}, edgeAt s e' rest' → e' = e ∧ rest' = rest := fun he' => by
    simpa [he.2] using he'.2.symm
  cases step_cases s t ht with
  | reset c hr ha ht => simp [he.1] at hr
  | hold hr hq ht => rcases hq with hq | hq | hq <;> simp_all [he.2, St.inPacket]
  | position e' rest' he' hst ht => simp [hst, St.inPacket] at hs
  | backward e' rest' he' hst hlt ht =>
    obtain ⟨rfl, rfl⟩ := hedge he'
    exact ⟨ht ▸ rfl, ht ▸ he.1, .inl (ht ▸ rfl)⟩
  | trailing e' rest' he' hst hle ht => simp [hst, St.inPacket] at hs
  | midBit e' rest' he' hst hle hb hw ht =>
    obtain ⟨rfl, rfl⟩ := hedge he'
    refine ⟨by simp [ht], by simp [ht, he.1], .inr ?_⟩
    have hsame : bitsLeft t = bitsLeft s := by simp [ht, bitsLeft]
    have hmid : t.bph = .mid := by simp [ht]
    simp only [edgesLeft, hmid, hb, hsame]
    omega
  | searchBit e' rest' b t0 he' hst hle hc ht => simp [hst, St.inPacket] at hs
  | symbolBit e' rest' b t0 he' hst hle hc hn ht =>
    obtain ⟨rfl, rfl⟩ := hedge he'
    have hsame := sameRecovery_shiftBit b t0 (afterBit s e' rest' b t0)
    rw [← ht] at hsame
    refine ⟨hsame.input, hsame.resetReq.trans he.1, .inr (edgesLeft_of_bit ?_)⟩
    rw [ht]
    exact bitsLeft_shiftBit (controlInv_afterBit h (.inr hs) e' rest' b t0) hs hn b t0
  | symbol e' rest' b t0 he' hst hle hc hn ht =>
    obtain ⟨rfl, rfl⟩ := hedge he'
    have hsame := sameRecovery_runSymbol ht
    refine ⟨hsame.input, hsame.resetReq.trans he.1, ?_⟩
    refine (bitsLeft_runSymbol (controlInv_symbolReady h hs e' rest' b t0) hs rfl ht).imp_right
      fun hless => edgesLeft_of_bit ?_
    have hready := bitsLeft_symbolReady hn e' rest' b t0
    omega

/-- By induction on the edges left. -/
theorem leaves_packet (n : Nat) {s : State} (h : ControlInv s) (hs : s.st.inPacket = true)
    (hr : s.resetReq = none) (hn : edgesLeft s ≤ n) (hlen : edgesLeft s ≤ s.input.length) :
    ∃ m t, m ≤ n ∧ runSteps m s = .next t ∧ t.st.inPacket = false := by
  have hbits := bitsLeft_pos h hs
  have hpos : 0 < edgesLeft s := by
    unfold edgesLeft
    split <;> omega
  induction n generalizing s with
  | zero => omega
  | succ n ih =>
    obtain ⟨e, rest, hinput⟩ := List.exists_cons_of_length_pos (Nat.lt_of_lt_of_le hpos hlen)
    obtain ⟨u, hstep, hrest, hr', hcase⟩ := step_of_packet h hs ⟨hr, hinput⟩
    by_cases hout : u.st.inPacket = false
    · exact ⟨1, u, by omega, (runSteps_one s).trans hstep, hout⟩
    · have hin : u.st.inPacket = true := by simpa using hout
      have hless := hcase.resolve_left hout
      have hu := stepKeepsControlInvariant s u h hstep
      have hbits' := bitsLeft_pos hu hin
      rw [hinput, List.length_cons] at hlen
      obtain ⟨m, t, hm, hrun, ht⟩ := ih hu hin hr' (by omega) (by rw [hrest]; omega) hbits' (by
        unfold edgesLeft
        split <;> omega)
      exact ⟨m + 1, t, by omega, by rw [runSteps, hstep, andThen_next, hrun], ht⟩

/-- Settles O56: at most two edges for each bit left, of which there are at most 365. -/
theorem packetEndsWithinItsBound : Obligations.PacketEndsWithinItsBound := by
  intro s h hs hr hlen
  have hle := edgesLeft_le s
  obtain ⟨m, t, hm, hrun, ht⟩ := leaves_packet (edgesLeft s) h hs hr le_rfl (hle.trans hlen)
  exact ⟨by have := bitsLeft_le (s := s); omega, m, t, hm.trans hle, hrun, ht⟩

end Sys2Proof.Latency
end


section
/-! The transition table (R211): every step of a run is the row its state and its edge choose. -/

namespace Sys2Proof.TransitionTable

open Sys2Proof Sys2Proof.Machine Sys2Proof.Rules Sys2Proof.Reports Sys2Proof.FrameSync

/-! ### A step against a row -/

/-- The step from `s` to `t` appends the Frames `l` and is as the row says. -/
structure Follows (s t : State) (l : List Frame) (row : Row) : Prop where
  next : t.st = row.next
  frames : t.frames = s.frames ++ l
  types : l.map Frame.type = row.types
  signalled : ∀ k ∈ row.signalled, t.ev.level k = true
  possible : ∀ k, t.ev.level k = true → k ∈ row.signalled ∨ k ∈ row.possible

/-- The events of a step with no unit's event: only the levels of `EV_GLITCH` and `EV_SYM_INVALID`. -/
theorem eq_of_level {g b : Bool} {k : EventKind}
    (h : ({ Events.none with glitch := g, symInvalid := b } : Events).level k = true) :
    k = .glitch ∨ k = .symInvalid := by
  cases k <;> simp_all [Events.level, Events.none]

theorem eq_glitch_of_level {g : Bool} {k : EventKind}
    (h : ({ Events.none with glitch := g } : Events).level k = true) : k = .glitch := by
  cases k <;> simp_all [Events.level, Events.none]

/-- Asserting an event raises its level and no other. -/
theorem level_assert (ev : Events) (j k : EventKind) :
    (ev.assert j).level k = (decide (j = k) || ev.level k) := by
  cases j <;> cases k <;> rfl

/-! ### The rows -/

theorem transitionRow_of_le {s : State} {e : Edge} (hle : s.cur ≤ e.t) (z d : Bool) :
    transitionRow s e z d = forwardRow s e z d :=
  if_neg fun h => absurd h.1 (BitVec.not_lt.mpr hle)

/-- The events possible in a unit (R211). -/
def unitEvents (s : State) : List EventKind :=
  if s.st.inData then [.glitch, .symInvalid] else [.glitch]

theorem glitch_mem_unitEvents (s : State) : EventKind.glitch ∈ unitEvents s := by
  unfold unitEvents
  split <;> simp

theorem symInvalid_mem_unitEvents {s : State} (hs : s.st.inData = true) :
    EventKind.symInvalid ∈ unitEvents s := by
  simp [unitEvents, hs]

/-- R211: in a packet, a step that completes no unit stays where it is. -/
theorem forwardRow_of_no_unit {s : State} {e : Edge} (hs : s.st.inPacket = true)
    (hunit : completesUnit s e = false) (heop : s.st = .awaitEop → completesSymbol s e = false)
    (z d : Bool) : forwardRow s e z d = ⟨byteType s e, [], unitEvents s, s.st⟩ := by
  unfold forwardRow unitEvents
  cases hst : s.st <;> simp_all [St.inPacket]

section
variable {s : State} {e : Edge} (z d : Bool)

theorem forwardRow_awaitSop (hst : s.st = .awaitSop) (hunit : completesUnit s e = true) :
    forwardRow s e z d =
      if (sopClassify s.cfg (s.sopRx.set 3 (completedSymbol s))).isSome then
        ⟨[.sop], [], [.glitch], .awaitHeader⟩
      else ⟨[.sopError], [.sopError], [.glitch], if e.stopReq then .halted else .searchPreamble⟩ := by
  simp [forwardRow, hst, hunit]

theorem forwardRow_awaitHeader (hst : s.st = .awaitHeader) (hunit : completesUnit s e = true) :
    forwardRow s e z d =
      ⟨byteType s e ++ [.header], [], unitEvents s, if z then .awaitCrc else .readPayload⟩ := by
  simp [forwardRow, unitEvents, hst, hunit]

theorem forwardRow_readPayload (hst : s.st = .readPayload) (hunit : completesUnit s e = true) :
    forwardRow s e z d =
      ⟨byteType s e ++ [objectType s], [],
        if objectType s = .requestDo then .refError :: unitEvents s else unitEvents s,
        if s.remaining = 1#3 then .awaitCrc else .readPayload⟩ := by
  simp [forwardRow, unitEvents, hst, hunit]

theorem forwardRow_awaitCrc (hst : s.st = .awaitCrc) (hunit : completesUnit s e = true) :
    forwardRow s e z d =
      ⟨byteType s e ++ [.crc32], if d then [.crcMismatch] else [], unitEvents s, .awaitEop⟩ := by
  simp [forwardRow, unitEvents, hst, hunit]

theorem forwardRow_awaitEop (hst : s.st = .awaitEop) (hsym : completesSymbol s e = true) :
    forwardRow s e z d =
      if completedSymbol s = 0x0D#5 then ⟨[.eop], [], [.glitch], .done⟩
      else ⟨[.eop], [.eopError], [.glitch], if e.stopReq then .halted else .searchPreamble⟩ := by
  simp [forwardRow, hst, hsym]

end

/-! ### The edge taken, as the conditions of the table read it -/

/-- R112, R113: the bit a step closes is the one the phase gives. -/
theorem bit_of_closes {s : State} {e : Edge} {b : Bool} {t0 : Sample} (hc : closes s e b t0) :
    recoversBit s e = true ∧ bitValue s = b := by
  obtain ⟨hb, rfl, -⟩ | ⟨hb, hw, rfl, -⟩ := hc
  · simp [recoversBit, bitValue, hb]
  · simp [recoversBit, bitValue, hb, hw]

theorem completesSymbol_of_lt {s : State} {e : Edge} (hn : s.symCnt.toNat < 4) :
    completesSymbol s e = false := by
  have hne : s.symCnt ≠ 4#3 := fun h => by simp [h] at hn
  simp [completesSymbol, hne]

theorem completesUnit_of_completesSymbol {s : State} {e : Edge} (h : completesSymbol s e = false) :
    completesUnit s e = false := by
  rw [completesUnit, h, Bool.false_and]

theorem byteType_of_completesSymbol {s : State} {e : Edge} (h : completesSymbol s e = false) :
    byteType s e = [] := by
  simp [byteType, h]

/-- R211: a step in a packet that completes no symbol: nothing but `EV_GLITCH` shows. -/
theorem follows_no_symbol {s t : State} {e : Edge} (hs : s.st.inPacket = true)
    (hsym : completesSymbol s e = false) {g : Bool} (hst : t.st = s.st) (hf : t.frames = s.frames)
    (hev : t.ev = { Events.none with glitch := g }) (z d : Bool) :
    Follows s t [] (forwardRow s e z d) := by
  rw [forwardRow_of_no_unit hs (completesUnit_of_completesSymbol hsym) (fun _ => hsym)]
  refine ⟨hst, by rw [hf, List.append_nil], (byteType_of_completesSymbol hsym).symm, by simp,
    fun k hk => .inr ?_⟩
  rw [hev] at hk
  exact eq_glitch_of_level hk ▸ glitch_mem_unitEvents s

/-! ### A completed symbol -/

/-- What a data symbol shows is possible in its unit. -/
theorem possible_of_afterData {s u : State} (hs : s.st.inData = true) {g : Bool}
    (hev : u.ev = { Events.none with glitch := g }) {k : EventKind}
    (hk : (afterData u).ev.level k = true) : k ∈ unitEvents s := by
  rw [afterData_ev hev] at hk
  rcases eq_of_level hk with rfl | rfl
  · exact glitch_mem_unitEvents s
  · exact symInvalid_mem_unitEvents hs

/-- R211: the search entered on a failure, by the level of `stop_req`. -/
theorem follows_failure {s t : State} {f : Frame} {y : FrameType} {j : EventKind} {stop g : Bool}
    (hst : t.st = searchState stop) (hf : t.frames = s.frames ++ [f]) (hy : f.type = y)
    (hev : t.ev = ({ Events.none with glitch := g } : Events).assert j) :
    Follows s t [f] ⟨[y], [j], [.glitch], if stop then .halted else .searchPreamble⟩ := by
  refine ⟨hst.trans (searchState_eq stop), hf, by simp [hy], fun k hk => ?_, fun k hk => ?_⟩
  · rw [hev, level_assert, List.mem_singleton.1 hk]
    simp
  · rw [hev, level_assert, Bool.or_eq_true, decide_eq_true_eq] at hk
    rcases hk with rfl | hk
    · exact .inl (by simp)
    · exact .inr (by simp [eq_glitch_of_level hk])

/-- R211: a unit Frame with no event of its own. -/
theorem follows_frame {s t : State} {f : Frame} {y : FrameType} {st : St} {g : Bool}
    (hst : t.st = st) (hf : t.frames = s.frames ++ [f]) (hy : f.type = y)
    (hev : t.ev = { Events.none with glitch := g }) :
    Follows s t [f] ⟨[y], [], [.glitch], st⟩ := by
  refine ⟨hst, hf, by simp [hy], by simp, fun k hk => .inr ?_⟩
  rw [hev] at hk
  simp [eq_glitch_of_level hk]

/-- R45(e), (f), R196: a message in its payload is no control message. -/
theorem kind_ne_control {s : State} (h : ControlInv s) (hst : s.st = .readPayload) :
    kind s.cfg s.hdr ≠ .control := by
  intro hk
  have hndo := (WellFormedPacket.kind_eq_control_iff _ _).1 hk
  have hpos := h.remaining_pos hst
  have hprog := h.progress hst
  have hzero : (ndo s.hdr).toNat = 0 := by rw [hndo]; rfl
  omega

/-- R208: whether a trailer differs from the computed value is read from its own Frame. -/
theorem any_crcDiffers (n : Byte) (u : State) {f : Frame} (hy : f.type = .crc32) :
    ((byteFrames n u ++ [f]).any fun g => g.type == .crc32 && g.data1 != g.data2) =
      (f.data1 != f.data2) := by
  have hbytes : ((byteFrames n u).any fun g => g.type == .crc32 && g.data1 != g.data2) = false := by
    rw [List.any_eq_false]
    intro g hg
    obtain ⟨-, -, rfl⟩ := mem_byteFrames hg
    simp
  simp [List.any_append, hbytes, hy]

/-- The Frame of a trailer, and that its two values differ as the registers do (R205). -/
theorem exists_crcFrame (s : State) : ∃ f : Frame, (crcDone s).frames = s.frames ++ [f] ∧
    f.type = .crc32 ∧ (f.data1 != f.data2) = (s.acc != s.crc) := by
  refine ⟨_, crcDone_frames s, rfl, ?_⟩
  rw [Bool.eq_iff_iff, bne_iff_ne, bne_iff_ne, ne_eq, ne_eq, zeroExtend_word_inj]

/-- R208: the step follows the row that its own Frames and Header choose. -/
def FollowsRow (s t : State) (e : Edge) : Prop :=
  ∃ l, Follows s t l (forwardRow s e (decide (t.hdr.extractLsb' 12 3 = 0#3))
    (l.any fun f => f.type == .crc32 && f.data1 != f.data2))

/-- R65, R150: the symbol the row reads is the one that is run. -/
theorem completedSymbol_of_closes {s : State} {e : Edge} {b : Bool} {t0 : Sample} (hc : closes s e b t0)
    (rest : List Edge) : completedSymbol s = (symbolReady s e rest b t0).symSr := by
  rw [completedSymbol, (bit_of_closes hc).2]
  rfl

section
variable {s t : State} {e : Edge} {rest : List Edge} {b : Bool} {t0 : Sample}

/-- The Byte Frame of the completed symbol, if it has one (R155). -/
def unitBytes (s : State) (e : Edge) (rest : List Edge) (b : Bool) (t0 : Sample) : List Frame :=
  byteFrames (dec5 s.cfg (setSymBit s.symSr 4 b)) (symbolReady s e rest b t0)

/-- R155: the Byte Frame of the table is the one the symbol emits. -/
theorem map_type_unitBytes (rest : List Edge) (b : Bool) (t0 : Sample) (h : completesSymbol s e = true)
    (hs : s.st.inData = true) : (unitBytes s e rest b t0).map Frame.type = byteType s e := by
  have hsym : (symbolReady s e rest b t0).unitSym = s.unitSym := rfl
  have hcfg : (symbolReady s e rest b t0).cfg = s.cfg := rfl
  rw [unitBytes, byteFrames, byteType, h, hs, hsym, hcfg]
  cases s.unitSym.getLsbD 0 <;> cases s.cfg.emitByteFrames <;> rfl

/-- R211: a data unit's Frame, after the Byte Frame of its last symbol. -/
theorem follows_unit (rest : List Edge) (b : Bool) (t0 : Sample) (hs : s.st.inData = true)
    (hsym : completesSymbol s e = true) {f : Frame} {y : FrameType} {st : St}
    {signalled possible : List EventKind}
    (hf : t.frames = (afterData (symbolReady s e rest b t0)).frames ++ [f])
    (hy : f.type = y) (hst : t.st = st) (hsig : ∀ k ∈ signalled, t.ev.level k = true)
    (hposs : ∀ k, t.ev.level k = true → k ∈ signalled ∨ k ∈ possible) :
    Follows s t (unitBytes s e rest b t0 ++ [f]) ⟨byteType s e ++ [y], signalled, possible, st⟩ := by
  refine ⟨hst, ?_, ?_, hsig, hposs⟩
  · rw [hf, dataSymbol_frames, List.append_assoc]
    rfl
  · rw [List.map_append, map_type_unitBytes rest b t0 hsym hs, List.map_singleton, hy]

/-- R211, a data symbol that does not complete its unit. -/
theorem followsRow_data (hsym : completesSymbol s e = true) (hs : s.st.inData = true)
    (hl : lastOfUnit s = false) (ht : t = afterData (symbolReady s e rest b t0)) :
    FollowsRow s t e := by
  refine ⟨unitBytes s e rest b t0, ?_⟩
  have hunit : completesUnit s e = false := by rw [completesUnit, hl, Bool.and_false]
  rw [forwardRow_of_no_unit (StopRequest.inPacket_of_inData hs) hunit fun h => by simp [h, St.inData] at hs]
  subst ht
  exact ⟨by simp [symbolReady, afterBit], dataSymbol_frames _ _, map_type_unitBytes rest b t0 hsym hs, by simp,
    fun k hk => .inr (possible_of_afterData hs rfl hk)⟩

/-- R211, the object rows. -/
theorem followsRow_object (h : ControlInv s) (hsym : completesSymbol s e = true) (hs : s.st = .readPayload)
    (hunit : completesUnit s e = true)
    (ht : objectDone (objectPart (kind s.cfg s.hdr)) (afterData (symbolReady s e rest b t0)) = .next t) :
    FollowsRow s t e := by
  have hdata : s.st.inData = true := by rw [hs]; rfl
  have hready : (symbolReady s e rest b t0).st = s.st := rfl
  have hnext : t.st = if s.remaining = 1#3 then .awaitCrc else .readPayload := by
    rw [WellFormedPacket.objectDone_eq_record ht]
    have hrem : s.remaining - 1#3 = 0#3 ↔ s.remaining = 1#3 := by bv_omega
    simp [symbolReady, afterBit, hrem, hs]
  have hposs : ∀ k, (afterData (symbolReady s e rest b t0)).ev.level k = true → k ∈ unitEvents s :=
    fun k hk => possible_of_afterData hdata rfl hk
  have htype : objectType (afterData (symbolReady s e rest b t0)) = objectType s := by
    simp [objectType, symbolReady, afterBit]
  have hrep : ObjectReport (afterData (symbolReady s e rest b t0)) t :=
    objectReport_of_objectDone (by simpa [symbolReady, afterBit] using ht)
  unfold FollowsRow
  simp only [forwardRow_readPayload _ _ hs hunit]
  cases hrep with
  | silent hk hf he => exact absurd (by simpa [symbolReady, afterBit] using hk) (kind_ne_control h hs)
  | plain hk hy hf he =>
    rw [htype] at hy hf
    have hne : objectType s ≠ .requestDo := by rcases hy with hy | hy | hy <;> simp [hy]
    rw [if_neg hne]
    exact ⟨_, follows_unit rest b t0 hdata hsym hf rfl hnext (by simp) fun k hk => .inr (hposs k (he ▸ hk))⟩
  | resolved p hk hy hp hf he =>
    rw [htype] at hy
    rw [if_pos hy, hy]
    exact ⟨_, follows_unit rest b t0 hdata hsym hf rfl hnext (by simp) fun k hk =>
      .inr (List.mem_cons_of_mem _ (hposs k (he ▸ hk)))⟩
  | unresolved hk hy hp hf he =>
    rw [htype] at hy
    rw [if_pos hy, hy]
    refine ⟨_, follows_unit rest b t0 hdata hsym hf rfl hnext (by simp) fun k hk => .inr ?_⟩
    rw [he, level_assert, Bool.or_eq_true, decide_eq_true_eq] at hk
    rcases hk with rfl | hk
    · exact List.mem_cons_self
    · exact List.mem_cons_of_mem _ (hposs k hk)

/-- R211, the Header rows. -/
theorem followsRow_header (k : Bool) (hd : Header) (hsym : completesSymbol s e = true)
    (hs : s.st = .awaitHeader) (hunit : completesUnit s e = true)
    (ht : t = headerDone k hd (afterData (symbolReady s e rest b t0))) : FollowsRow s t e := by
  have hdata : s.st.inData = true := by rw [hs]; rfl
  unfold FollowsRow
  simp only [forwardRow_awaitHeader _ _ hs hunit]
  subst ht
  refine ⟨_, follows_unit rest b t0 hdata hsym (headerDone_frames ..) rfl ?_ (by simp) fun k hk => .inr ?_⟩
  · rw [headerDone_eq]
    simp [ndo]
    rfl
  · rw [headerDone_ev] at hk
    exact possible_of_afterData hdata rfl hk

/-- R211, the trailer rows. -/
theorem followsRow_trailer (hsym : completesSymbol s e = true)
    (hs : s.st = .awaitCrc) (hunit : completesUnit s e = true)
    (ht : t = crcDone (afterData (symbolReady s e rest b t0))) : FollowsRow s t e := by
  have hdata : s.st.inData = true := by rw [hs]; rfl
  have hposs : ∀ k, (afterData (symbolReady s e rest b t0)).ev.level k = true → k ∈ unitEvents s :=
    fun k hk => possible_of_afterData hdata rfl hk
  have hev := crcDone_ev (afterData (symbolReady s e rest b t0))
  obtain ⟨f, hf, hy, hdiff⟩ := exists_crcFrame (afterData (symbolReady s e rest b t0))
  have hst : (crcDone (afterData (symbolReady s e rest b t0))).st = .awaitEop := by rw [crcDone_eq]
  rw [← ht] at hev hf hst
  refine ⟨unitBytes s e rest b t0 ++ [f], ?_⟩
  rw [unitBytes, any_crcDiffers _ _ hy, hdiff, forwardRow_awaitCrc _ _ hs hunit]
  cases hd : (afterData (symbolReady s e rest b t0)).acc != (afterData (symbolReady s e rest b t0)).crc
  · rw [hd, if_neg Bool.false_ne_true] at hev
    exact follows_unit rest b t0 hdata hsym hf hy hst (by simp) fun k hk => .inr (hposs k (hev ▸ hk))
  · rw [hd, if_pos rfl] at hev
    refine follows_unit rest b t0 hdata hsym hf hy hst ?_ fun k hk => ?_
    · simp [hev, level_assert]
    · rw [hev, level_assert, Bool.or_eq_true, decide_eq_true_eq] at hk
      exact hk.imp (fun hj => by simp [hj]) (hposs k)

/-- R211, the four symbols of the ordered set. -/
theorem followsRow_sopFound (v : Fin 5) (hs : s.st = .awaitSop) (hunit : completesUnit s e = true)
    (hv : sopClassify s.cfg (s.sopRx.set 3 (completedSymbol s)) = some v) {u : State}
    (ht : t = sopFound (BitVec.ofNat 3 v) u) (hframes : u.frames = s.frames) {g : Bool}
    (hev : u.ev = { Events.none with glitch := g }) : FollowsRow s t e := by
  unfold FollowsRow
  simp only [forwardRow_awaitSop _ _ hs hunit, hv, Option.isSome_some, if_true]
  subst ht
  exact ⟨_, follows_frame rfl (hframes ▸ sopFound_frames _ _) rfl hev⟩

theorem followsRow_sopError (hs : s.st = .awaitSop) (hunit : completesUnit s e = true)
    (hv : sopClassify s.cfg (s.sopRx.set 3 (completedSymbol s)) = none) {u : State}
    (ht : t = sopError u) (hframes : u.frames = s.frames) (hstop : u.stopReq = e.stopReq) {g : Bool}
    (hev : u.ev = { Events.none with glitch := g }) : FollowsRow s t e := by
  unfold FollowsRow
  simp only [forwardRow_awaitSop _ _ hs hunit, hv, Option.isSome_none, Bool.false_eq_true, if_false]
  subst ht
  exact ⟨_, follows_failure (hstop ▸ rfl) (hframes ▸ sopError_frames _) rfl (by rw [sopError_ev, hev])⟩

/-- R211, the EOP rows. -/
theorem followsRow_eop (hs : s.st = .awaitEop) (hsym : completesSymbol s e = true) {u : State}
    (ht : t = eopSymbol (completedSymbol s) u) (hframes : u.frames = s.frames)
    (hstop : u.stopReq = e.stopReq) {g : Bool} (hev : u.ev = { Events.none with glitch := g }) :
    FollowsRow s t e := by
  have hk : kEop = 0x0D#5 := rfl
  unfold FollowsRow
  simp only [forwardRow_awaitEop _ _ hs hsym]
  obtain ⟨hx, heop⟩ | ⟨hx, heop⟩ := eopSymbol_cases (completedSymbol s) u <;> rw [heop] at ht <;> subst ht
  · rw [if_pos (hx.trans hk)]
    exact ⟨_, follows_frame rfl (hframes ▸ emit_frames ..) rfl hev⟩
  · rw [if_neg (hk ▸ hx)]
    exact ⟨_, follows_failure (hstop ▸ rfl) (hframes ▸ emit_frames ..) rfl
      (by rw [enterSearch_ev, signal_ev, emit_ev, hev])⟩

/-- R211, every row of a packet whose edge completes a symbol. -/
theorem followsRow_symbol (h : ControlInv s) (hs : s.st.inPacket = true) (hc : closes s e b t0)
    (hn : s.symCnt = 4#3) (ht : runSymbol (symbolReady s e rest b t0) = .next t) : FollowsRow s t e := by
  have hsym : completesSymbol s e = true := by simp [completesSymbol, (bit_of_closes hc).1, hn]
  have hunit : ∀ n, s.unitSym = n → unitSyms s.st = some (n.toNat + 1) → completesUnit s e = true := by
    intro n hk hlast
    simp [completesUnit, hsym, lastOfUnit, hk, hlast]
  have hx := completedSymbol_of_closes hc rest
  cases runSymbol_cases _ t ht with
  | idle hs' ht => exact absurd (hs.symm.trans hs') Bool.noConfusion
  | sopStored hs' hk ht =>
    have hst : s.st = .awaitSop := hs'
    have hk' : s.unitSym.toNat < 3 := hk
    have hno : completesUnit s e = false := by
      have hne : s.unitSym.toNat ≠ 3 := by omega
      simp [completesUnit, lastOfUnit, hst, unitSyms, hne]
    unfold FollowsRow
    simp only [forwardRow_of_no_unit hs hno fun h => by simp [hst] at h]
    refine ⟨[], ht ▸ rfl, ht ▸ (List.append_nil _).symm, by simp [byteType, hst, St.inData], by simp,
      fun k hk => .inr ?_⟩
    subst ht
    exact eq_glitch_of_level hk ▸ glitch_mem_unitEvents s
  | sopAccepted v hs' hk hv ht =>
    exact followsRow_sopFound v hs' (hunit 3#3 hk (by rw [show s.st = .awaitSop from hs']; rfl))
      (by rw [hx]; exact hv) ht rfl rfl
  | sopRejected hs' hk hv ht =>
    exact followsRow_sopError hs' (hunit 3#3 hk (by rw [show s.st = .awaitSop from hs']; rfl))
      (by rw [hx]; exact hv) ht rfl rfl rfl
  | data hs' hl ht => exact followsRow_data hsym hs' hl ht
  | header hs' hk ht =>
    exact followsRow_header _ _ hsym hs' (hunit 3#3 hk (by rw [show s.st = .awaitHeader from hs']; rfl)) ht
  | object hs' hk ht =>
    exact followsRow_object h hsym hs'
      (hunit 7#3 hk (by rw [show s.st = .readPayload from hs']; rfl)) ht
  | trailer hs' hk ht =>
    exact followsRow_trailer hsym hs' (hunit 7#3 hk (by rw [show s.st = .awaitCrc from hs']; rfl)) ht
  | eop hs' ht => exact followsRow_eop (u := symbolReady s e rest b t0) hs' hsym (hx ▸ ht) rfl rfl rfl

end

/-! ### The step -/

/-- R131: "run = 63" of the table is the count that completes the run. -/
theorem completesRun_eq {s u : State} {b : Bool} (hb : bitValue s = b) (hexp : u.preExp = s.preExp)
    (hcnt : u.preCnt = s.preCnt) (hcfg : u.cfg = s.cfg) :
    completesRun s = ((preambleCount b u).preCnt.toNat == u.cfg.preambleRun) := by
  rw [completesRun, preambleCount_eq, hb, hexp, hcnt, hcfg]
  split <;> rfl

/-- R211, the rows of the search whose edge completes a bit. -/
theorem followsRow_searchBit {s t : State} {e : Edge} {rest : List Edge} {b : Bool} {t0 : Sample}
    (hs : s.st = .searchPreamble) (hc : closes s e b t0)
    (ht : t = preambleBit b (afterBit s e rest b t0)) : FollowsRow s t e := by
  obtain ⟨hrec, hb⟩ := bit_of_closes hc
  have hrun : completesRun s =
      ((preambleCount b (afterBit s e rest b t0)).preCnt.toNat ==
        (afterBit s e rest b t0).cfg.preambleRun) :=
    completesRun_eq hb rfl rfl rfl
  unfold FollowsRow forwardRow
  simp only [hs, hrec, Bool.not_true, Bool.false_eq_true, if_false]
  obtain ⟨hcount, hbit⟩ | ⟨hcount, hbit⟩ := preambleBit_cases b (afterBit s e rest b t0)
  · rw [hrun, beq_iff_eq.2 hcount, ht, hbit, preambleCount_eq]
    exact ⟨_, follows_frame rfl rfl rfl rfl⟩
  · rw [hrun, beq_eq_false_iff_ne.2 hcount, ht, hbit, preambleCount_eq]
    refine ⟨[], ?_, (List.append_nil _).symm, rfl, by simp, fun k hk => .inr ?_⟩
    · simp [afterBit, hs]
    · rw [eq_glitch_of_level hk]
      exact List.mem_singleton_self _

/-- R211, an edge that only opens a bit. -/
theorem followsRow_midBit {s t : State} {e : Edge} (hs : s.st = .searchPreamble ∨ s.st.inPacket = true)
    (hb : s.bph = .boundary) (hw : oneWindow s.cfg (interval s.cur e.t) = true) {g : Bool}
    (hst : t.st = s.st) (hf : t.frames = s.frames) (hev : t.ev = { Events.none with glitch := g }) :
    FollowsRow s t e := by
  have hrec : recoversBit s e = false := by simp [recoversBit, hb, hw]
  rcases hs with hs | hs
  · refine ⟨[], hst.trans ?_, by rw [hf, List.append_nil], ?_, ?_, fun k hk => .inr ?_⟩ <;>
      simp only [forwardRow, hs, hrec, Bool.not_false, if_true]
    · rfl
    · simp
    · rw [hev] at hk
      rw [eq_glitch_of_level hk]
      exact List.mem_singleton_self _
  · exact ⟨[], follows_no_symbol hs (by simp [completesSymbol, hrec]) hst hf hev _ _⟩

/-- R211: a step with no Frame and no event that goes where its row says. -/
theorem follows_silent {s t : State} {row : Row} (hst : t.st = row.next) (hf : t.frames = s.frames)
    (htypes : row.types = []) (hsig : row.signalled = []) (hev : t.ev = Events.none) :
    Follows s t [] row := by
  refine ⟨hst, by rw [hf, List.append_nil], htypes.symm, by simp [hsig], fun k hk => ?_⟩
  rw [hev] at hk
  cases k <;> cases hk

/-- R119: an edge below the cursor, in a state that takes it. -/
theorem follows_backward {s t : State} {e : Edge} (hlt : e.t < s.cur)
    (hs : s.st = .done ∨ s.st = .searchPreamble ∨ s.st.inPacket = true) (hst : t.st = .faulted)
    (hf : t.frames = s.frames) (hev : t.ev = { Events.none with inputFault := true }) (z d : Bool) :
    Follows s t [] (transitionRow s e z d) := by
  have htakes : s.st ≠ .resetWait ∧ s.st ≠ .halted ∧ s.st ≠ .faulted := by
    cases hq : s.st <;> simp_all [St.inPacket]
  rw [transitionRow, if_pos ⟨hlt, htakes⟩]
  refine ⟨hst, by rw [hf, List.append_nil], rfl, by simp [hev, Events.level], fun k hk => .inl ?_⟩
  rw [hev] at hk
  cases k <;> simp_all [Events.level, Events.none]

/-- R211: the step follows the row of the whole table that its own Frames and Header choose. -/
def FollowsTable (s t : State) (e : Edge) : Prop :=
  ∃ l, Follows s t l (transitionRow s e (decide (t.hdr.extractLsb' 12 3 = 0#3))
    (l.any fun f => f.type == .crc32 && f.data1 != f.data2))

theorem followsTable_of_le {s t : State} {e : Edge} (hle : s.cur ≤ e.t) (h : FollowsRow s t e) :
    FollowsTable s t e := by
  obtain ⟨l, hl⟩ := h
  exact ⟨l, (transitionRow_of_le hle _ _).symm ▸ hl⟩

/-- R211: every step that meets an edge, without a reset. -/
theorem followsTable_of_step {s t : State} {e : Edge} {rest : List Edge} (h : ControlInv s)
    (he : edgeAt s e rest) (ht : step s = .next t) : FollowsTable s t e := by
  have same : ∀ {e' : Edge} {rest' : List Edge}, edgeAt s e' rest' → e' = e := fun he' =>
    (List.cons.inj (he'.2.symm.trans he.2)).1
  cases step_cases s t ht with
  | reset c hr ha ht => exact absurd (he.1.symm.trans hr) (by simp)
  | hold hr hq ht =>
    subst ht
    rcases hq with hq | hq
    · exact absurd (he.2.symm.trans hq) (by simp)
    · refine ⟨[], follows_silent ?_ rfl ?_ ?_ rfl⟩ <;>
        rcases hq with hq | hq <;> simp [transitionRow, forwardRow, hq]
  | position e' rest' he' hs ht =>
    obtain rfl := same he'
    subst ht
    refine ⟨[], follows_silent ?_ rfl ?_ ?_ rfl⟩ <;>
      simp [transitionRow, forwardRow, hs, position, enterSearch, searchState_eq, consume]
  | backward e' rest' he' hs hlt ht =>
    obtain rfl := same he'
    subst ht
    refine ⟨[], follows_backward hlt hs ?_ ?_ ?_ _ _⟩ <;> rfl
  | trailing e' rest' he' hs hle ht =>
    obtain rfl := same he'
    subst ht
    refine followsTable_of_le hle ⟨[], follows_silent ?_ rfl ?_ ?_ rfl⟩ <;>
      simp [forwardRow, hs, skipTrailing, enterSearch, searchState_eq, consume]
  | midBit e' rest' he' hs hle hb hw ht =>
    obtain rfl := same he'
    refine followsTable_of_le hle
      (followsRow_midBit (g := glitchFloor s.cfg (interval s.cur e'.t)) hs hb hw ?_ ?_ ?_)
    all_goals subst ht; cases glitchFloor s.cfg (interval s.cur e'.t) <;> rfl
  | searchBit e' rest' b t0 he' hs hle hc ht =>
    obtain rfl := same he'
    exact followsTable_of_le hle (followsRow_searchBit hs hc ht)
  | symbolBit e' rest' b t0 he' hs hle hc hn ht =>
    obtain rfl := same he'
    refine followsTable_of_le hle
      ⟨[], follows_no_symbol (g := glitches s e') hs (completesSymbol_of_lt hn) ?_ ?_ ?_ _ _⟩
    all_goals subst ht; unfold shiftBit; split <;> rfl
  | symbol e' rest' b t0 he' hs hle hc hn ht =>
    obtain rfl := same he'
    exact followsTable_of_le hle (followsRow_symbol h hs hc hn ht)

/-- Settles O44: the row is the one the step's own Frames and Header choose, and a reset keeps no Frame. -/
theorem stepFollowsTheTransitionTable : Obligations.StepFollowsTheTransitionTable := by
  constructor
  · intro s t e rest h he ht
    obtain ⟨l, hnext, hframes, htypes, hsignalled, hpossible⟩ := followsTable_of_step h he ht
    rw [newFrames_of_append hframes]
    exact ⟨hnext, hframes, htypes, fun k => ⟨hsignalled k, hpossible k⟩⟩
  · intro s t hr ht
    cases hreset : s.resetReq with
    | none => exact absurd hreset hr
    | some c =>
      rw [StepRules.step_eq_takeReset hreset, takeReset] at ht
      split at ht
      · cases ht
        exact ⟨rfl, rfl, rfl⟩
      · cases ht

end Sys2Proof.TransitionTable
end
